-- ==== Sys2Proof/Word.lean ====
section
/-! DEFINITION. The word and number types of the SP128: what the manual sends, compares or wraps as a word is a
bit vector of the manual's width; what it only numbers (slots, classes, channels, tags) is a bounded number. -/

namespace Sys2Proof

/-- One byte of a frame (R185). -/
abbrev Byte := BitVec 8

/-- A two-byte quantity of a frame (R185). -/
abbrev Word16 := BitVec 16

/-- A four-byte quantity of a frame: the key, the raise sequence and every signed value (R187). -/
abbrev Word32 := BitVec 32

/-- A slot of the point table, 0–127 (R1). -/
abbrev SlotNo := Fin 128

/-- A scan class, 0–3 (R45). -/
abbrev ClassNo := Fin 4

/-- An analog input AIN0–AIN23 (R70). -/
abbrev ChannelNo := Fin 24

/-- An action record, 0–15 (R134). -/
abbrev ActionNo := Fin 16

/-- An output channel, 0–3 (R151). -/
abbrev OutputNo := Fin 4

/-- A request's tag, 0–15 (R163). -/
abbrev Tag := Fin 16

/-- A severity or a threshold, 0–7 (R5, R120). -/
abbrev Severity := Fin 8

/-- A slot's generation, 0–255, which wraps (R2). -/
abbrev Generation := BitVec 8

/-- The converter's reading, 0–16383 (R70). -/
abbrev RawReading := BitVec 14

/-- An output level, 0–4095 (R151). -/
abbrev Level := BitVec 12

end Sys2Proof
end

