-- ==== Sys2Proof/Syntax.lean ====
section
/-! DEFINITION. The commands of the SP128: one constructor of `Instr` for each row of the table of operations and
events. A request carries its port, its tag and its argument bytes as they stand in the frame (R187), so that the
range checks are the owner's, as R169 says. -/

namespace Sys2Proof

/-- The two request ports (R163). -/
inductive Port where
  | H | L
deriving DecidableEq, Repr

/-- The second port, "the other port" of the text. -/
def Port.other : Port → Port
  | .H => .L
  | .L => .H

/-- The external trigger lines XT0 and XT1 (R53). -/
inductive XtLine where
  | xt0 | xt1
deriving DecidableEq, Repr

/-- The 39 bytes of a configuration block as they stand on the wire (R188). -/
structure ConfigBlock where
  key : Word32
  channel : Byte
  gain : Byte
  flags : Byte
  offset : Word32
  span : Word32
  lolo : Word32
  lo : Word32
  hi : Word32
  hihi : Word32
  deadband : Word16
  confirm : Byte
  stale : Word16
  severity : Byte
  policy : Byte
  route : Byte
deriving DecidableEq, Repr

/-- The request kinds of R187. -/
inductive Kind where
  | portAttach | portSet | portStatus | portCancel | portDetach
  | pointDefine | pointFind | pointRead | tableSummary | pointRetire | pointSample
  | editOpen | editSet | editCommit | editDrop
  | classConfig | classStart | classStop | classTrigger | classStatus
  | listInsert | listRemove | listRead
  | convertDirect
  | noticeFetch | noticeWait | noticeAck
  | actionCreate | actionLink | actionUnlink | actionRearm | actionFree | actionRead
  | outputWrite | outputPin | outputUnpin | outputFallback | outputRead
deriving DecidableEq, Repr

/-- What one command clocks of a COLLECT: how many bytes, and whether the transaction goes on after them or select is
deasserted (R164, R172). DESIGN CHOICE: log entry 8. -/
structure CollectPart where
  clocked : Nat
  more : Bool
deriving DecidableEq, Repr

/-- The commands, one constructor per row of the table. -/
inductive Instr where
  /-- Power-up, with whether RSTn, HPRSTn and LPRSTn are asserted at it (R190). -/
  | powerUp (rst hPrst lPrst : Bool)
  /-- Assertion of RSTn (R183). -/
  | deviceReset
  /-- Release of RSTn, with whether a port is in a select period that began before it (R191). -/
  | rstnRelease (hSelect lSelect : Bool)
  /-- Assertion of a port's PRSTn (R182). -/
  | prstnAssert (p : Port)
  /-- Release of a port's PRSTn, with whether the port is in a select period that began before it (R182, R191). -/
  | prstnRelease (p : Port) (select : Bool)
  /-- A transaction whose command byte is `b` (R164). -/
  | badCommandByte (p : Port) (b : Byte)
  /-- A SUBMIT transaction with the bytes clocked in after its command byte (R165, R166). -/
  | frameDiscard (p : Port) (bytes : List Byte)
  /-- A frame that passes the frame checks, with its kind byte and its argument bytes (R169). -/
  | badRequestFrame (p : Port) (t : Tag) (kind : Byte) (args : List Byte)
  /-- A COLLECT transaction, or the next part of the one under way on the port (R164, R172). DESIGN CHOICE: log entry 8. -/
  | collect (p : Port) (part : CollectPart)
  | portAttach (p : Port) (t : Tag) (timeout threshold : Byte)
  | portSet (p : Port) (t : Tag) (timeout threshold : Byte)
  | portStatus (p : Port) (t : Tag) (clear : Byte)
  | portCancel (p : Port) (t : Tag) (target : Byte)
  | portDetach (p : Port) (t : Tag)
  | pointDefine (p : Port) (t : Tag) (block : ConfigBlock)
  | pointFind (p : Port) (t : Tag) (key : Word32)
  | pointRead (p : Port) (t : Tag) (slot gen : Byte)
  | tableSummary (p : Port) (t : Tag) (start : Byte)
  | pointRetire (p : Port) (t : Tag) (slot gen : Byte)
  | pointSample (p : Port) (t : Tag) (slot gen : Byte)
  | editOpen (p : Port) (t : Tag) (slot gen : Byte)
  | editSet (p : Port) (t : Tag) (slot gen field presence : Byte) (area : BitVec 64)
  | editCommit (p : Port) (t : Tag) (slot gen : Byte)
  | editDrop (p : Port) (t : Tag) (slot gen : Byte)
  | classConfig (p : Port) (t : Tag) (cls source : Byte) (period : Word16)
  | classStart (p : Port) (t : Tag) (cls : Byte)
  | classStop (p : Port) (t : Tag) (cls : Byte)
  | classTrigger (p : Port) (t : Tag) (cls : Byte)
  | classStatus (p : Port) (t : Tag) (cls clear : Byte)
  | listInsert (p : Port) (t : Tag) (cls slot gen position : Byte)
  | listRemove (p : Port) (t : Tag) (cls slot gen : Byte)
  | listRead (p : Port) (t : Tag) (cls : Byte)
  | convertDirect (p : Port) (t : Tag) (channel gain : Byte)
  | noticeFetch (p : Port) (t : Tag)
  | noticeWait (p : Port) (t : Tag) (timeout : Word16)
  | noticeAck (p : Port) (t : Tag) (slot gen : Byte)
  | actionCreate (p : Port) (t : Tag) (triggers output : Byte) (drive : Word16) (budget flags : Byte)
  | actionLink (p : Port) (t : Tag) (action slot gen : Byte)
  | actionUnlink (p : Port) (t : Tag) (slot gen : Byte)
  | actionRearm (p : Port) (t : Tag) (action budget : Byte)
  | actionFree (p : Port) (t : Tag) (action : Byte)
  | actionRead (p : Port) (t : Tag) (action : Byte)
  | outputWrite (p : Port) (t : Tag) (channel : Byte) (value : Word16)
  | outputPin (p : Port) (t : Tag) (channel : Byte)
  | outputUnpin (p : Port) (t : Tag) (channel : Byte)
  | outputFallback (p : Port) (t : Tag) (channel presence : Byte) (value : Word16)
  | outputRead (p : Port) (t : Tag) (channel : Byte)
  /-- Expiry of a class's period timer (R52). -/
  | periodExpiry (c : ClassNo)
  /-- A rising edge on a trigger line (R53). DESIGN CHOICE: log entry 16. -/
  | xtRisingEdge (line : XtLine)
  /-- A grant by the arbiter (R82). -/
  | grant
  /-- The end of the settling time (R73). -/
  | settlingElapsed
  /-- A completion, with the level of the analog input that the job's channel selects, in steps of a 64th of a G1 reading
  (R70, R74). DESIGN CHOICE: log entry 15. -/
  | conversionComplete (input : Int)
  /-- The lapse of the claim on a slot's point (R28). -/
  | claimLapse (i : SlotNo)
  /-- The expiry of a point's stale timer (R105). -/
  | staleExpiry (i : SlotNo)
  /-- The timeout of a port's waiting NOTICE.WAIT (R127). -/
  | waitTimeout (p : Port)
  /-- A frame that passes the frame checks while its tag is open or 4 tags are (R167). -/
  | requestRefusal (p : Port) (t : Tag) (kind : Byte) (args : List Byte)
deriving DecidableEq, Repr

end Sys2Proof
end

