-- ==== Sys2Proof/Decode.lean ====
section
/-! DEFINITION. The request frames of R185 to R188: what the bytes clocked in by a SUBMIT spell, and the frame that
carries a request. The table of operations gives its rows no bits, so `decodeTableWord` reads nothing. -/

namespace Sys2Proof

/-- The command a word spells by the table's bits. No row of the table has bits, so no word spells a command. -/
def decodeTableWord (_nbits _w : Nat) : Option Instr := none

/-- The kind codes of R187. -/
def Kind.code : Kind → Byte
  | .portAttach => 0x01
  | .portSet => 0x02
  | .portStatus => 0x03
  | .portCancel => 0x04
  | .portDetach => 0x05
  | .pointDefine => 0x10
  | .pointFind => 0x11
  | .pointRead => 0x12
  | .tableSummary => 0x13
  | .pointRetire => 0x14
  | .pointSample => 0x15
  | .editOpen => 0x20
  | .editSet => 0x21
  | .editCommit => 0x22
  | .editDrop => 0x23
  | .classConfig => 0x30
  | .classStart => 0x31
  | .classStop => 0x32
  | .classTrigger => 0x33
  | .classStatus => 0x34
  | .listInsert => 0x38
  | .listRemove => 0x39
  | .listRead => 0x3A
  | .convertDirect => 0x40
  | .noticeFetch => 0x50
  | .noticeWait => 0x51
  | .noticeAck => 0x52
  | .actionCreate => 0x60
  | .actionLink => 0x61
  | .actionUnlink => 0x62
  | .actionRearm => 0x63
  | .actionFree => 0x64
  | .actionRead => 0x65
  | .outputWrite => 0x70
  | .outputPin => 0x71
  | .outputUnpin => 0x72
  | .outputFallback => 0x73
  | .outputRead => 0x74

/-- Every request kind, in the order of R187. -/
def allKinds : List Kind :=
  [.portAttach, .portSet, .portStatus, .portCancel, .portDetach,
   .pointDefine, .pointFind, .pointRead, .tableSummary, .pointRetire, .pointSample,
   .editOpen, .editSet, .editCommit, .editDrop,
   .classConfig, .classStart, .classStop, .classTrigger, .classStatus,
   .listInsert, .listRemove, .listRead, .convertDirect,
   .noticeFetch, .noticeWait, .noticeAck,
   .actionCreate, .actionLink, .actionUnlink, .actionRearm, .actionFree, .actionRead,
   .outputWrite, .outputPin, .outputUnpin, .outputFallback, .outputRead]

/-- The request kind a kind byte names, if any (R187). -/
def Kind.ofCode (b : Byte) : Option Kind := allKinds.find? fun k => k.code == b

/-- The number of argument bytes a kind carries (R187). -/
def Kind.argCount : Kind → Nat
  | .portAttach | .portSet => 2
  | .portStatus | .portCancel => 1
  | .portDetach => 0
  | .pointDefine => 39
  | .pointFind => 4
  | .pointRead | .pointRetire | .pointSample => 2
  | .tableSummary => 1
  | .editOpen | .editCommit | .editDrop => 2
  | .editSet => 12
  | .classConfig => 4
  | .classStart | .classStop | .classTrigger => 1
  | .classStatus => 2
  | .listInsert => 4
  | .listRemove => 3
  | .listRead => 1
  | .convertDirect => 2
  | .noticeFetch => 0
  | .noticeWait | .noticeAck => 2
  | .actionCreate => 6
  | .actionLink => 3
  | .actionUnlink | .actionRearm => 2
  | .actionFree | .actionRead => 1
  | .outputWrite => 3
  | .outputPin | .outputUnpin | .outputRead => 1
  | .outputFallback => 4

/-- The byte of an argument area at an offset. -/
def byteAt (bs : List Byte) (n : Nat) : Byte := bs.getD n 0

/-- The two-byte quantity at an offset, most significant byte first (R185). -/
def word16At (bs : List Byte) (n : Nat) : Word16 := byteAt bs n ++ byteAt bs (n + 1)

/-- The four-byte quantity at an offset, most significant byte first (R185). -/
def word32At (bs : List Byte) (n : Nat) : Word32 := word16At bs n ++ word16At bs (n + 2)

/-- The eight-byte value area at an offset, most significant byte first (R185, R187). -/
def word64At (bs : List Byte) (n : Nat) : BitVec 64 := word32At bs n ++ word32At bs (n + 4)

/-- The bytes of a two-byte quantity, most significant first (R185). -/
def bytes16 (w : Word16) : List Byte := [w.extractLsb' 8 8, w.extractLsb' 0 8]

/-- The bytes of a four-byte quantity, most significant first (R185). -/
def bytes32 (w : Word32) : List Byte :=
  [w.extractLsb' 24 8, w.extractLsb' 16 8, w.extractLsb' 8 8, w.extractLsb' 0 8]

/-- The bytes of the eight-byte value area, most significant first (R185, R187). -/
def bytes64 (w : BitVec 64) : List Byte :=
  bytes32 (w.extractLsb' 32 32) ++ bytes32 (w.extractLsb' 0 32)

/-- The configuration block laid out at the head of an argument area (R188). -/
def blockOfBytes (bs : List Byte) : ConfigBlock where
  key := word32At bs 0
  channel := byteAt bs 4
  gain := byteAt bs 5
  flags := byteAt bs 6
  offset := word32At bs 7
  span := word32At bs 11
  lolo := word32At bs 15
  lo := word32At bs 19
  hi := word32At bs 23
  hihi := word32At bs 27
  deadband := word16At bs 31
  confirm := byteAt bs 33
  stale := word16At bs 34
  severity := byteAt bs 36
  policy := byteAt bs 37
  route := byteAt bs 38

/-- The 39 bytes of a configuration block (R188). -/
def bytesOfBlock (b : ConfigBlock) : List Byte :=
  bytes32 b.key ++ [b.channel, b.gain, b.flags] ++ bytes32 b.offset ++ bytes32 b.span ++
    bytes32 b.lolo ++ bytes32 b.lo ++ bytes32 b.hi ++ bytes32 b.hihi ++ bytes16 b.deadband ++
    [b.confirm] ++ bytes16 b.stale ++ [b.severity, b.policy, b.route]

/-- The request of a kind that an argument area spells (R187). -/
def requestOf (p : Port) (t : Tag) (k : Kind) (a : List Byte) : Instr :=
  match k with
  | .portAttach => .portAttach p t (byteAt a 0) (byteAt a 1)
  | .portSet => .portSet p t (byteAt a 0) (byteAt a 1)
  | .portStatus => .portStatus p t (byteAt a 0)
  | .portCancel => .portCancel p t (byteAt a 0)
  | .portDetach => .portDetach p t
  | .pointDefine => .pointDefine p t (blockOfBytes a)
  | .pointFind => .pointFind p t (word32At a 0)
  | .pointRead => .pointRead p t (byteAt a 0) (byteAt a 1)
  | .tableSummary => .tableSummary p t (byteAt a 0)
  | .pointRetire => .pointRetire p t (byteAt a 0) (byteAt a 1)
  | .pointSample => .pointSample p t (byteAt a 0) (byteAt a 1)
  | .editOpen => .editOpen p t (byteAt a 0) (byteAt a 1)
  | .editSet => .editSet p t (byteAt a 0) (byteAt a 1) (byteAt a 2) (byteAt a 3) (word64At a 4)
  | .editCommit => .editCommit p t (byteAt a 0) (byteAt a 1)
  | .editDrop => .editDrop p t (byteAt a 0) (byteAt a 1)
  | .classConfig => .classConfig p t (byteAt a 0) (byteAt a 1) (word16At a 2)
  | .classStart => .classStart p t (byteAt a 0)
  | .classStop => .classStop p t (byteAt a 0)
  | .classTrigger => .classTrigger p t (byteAt a 0)
  | .classStatus => .classStatus p t (byteAt a 0) (byteAt a 1)
  | .listInsert => .listInsert p t (byteAt a 0) (byteAt a 1) (byteAt a 2) (byteAt a 3)
  | .listRemove => .listRemove p t (byteAt a 0) (byteAt a 1) (byteAt a 2)
  | .listRead => .listRead p t (byteAt a 0)
  | .convertDirect => .convertDirect p t (byteAt a 0) (byteAt a 1)
  | .noticeFetch => .noticeFetch p t
  | .noticeWait => .noticeWait p t (word16At a 0)
  | .noticeAck => .noticeAck p t (byteAt a 0) (byteAt a 1)
  | .actionCreate => .actionCreate p t (byteAt a 0) (byteAt a 1) (word16At a 2) (byteAt a 4) (byteAt a 5)
  | .actionLink => .actionLink p t (byteAt a 0) (byteAt a 1) (byteAt a 2)
  | .actionUnlink => .actionUnlink p t (byteAt a 0) (byteAt a 1)
  | .actionRearm => .actionRearm p t (byteAt a 0) (byteAt a 1)
  | .actionFree => .actionFree p t (byteAt a 0)
  | .actionRead => .actionRead p t (byteAt a 0)
  | .outputWrite => .outputWrite p t (byteAt a 0) (word16At a 1)
  | .outputPin => .outputPin p t (byteAt a 0)
  | .outputUnpin => .outputUnpin p t (byteAt a 0)
  | .outputFallback => .outputFallback p t (byteAt a 0) (byteAt a 1) (word16At a 2)
  | .outputRead => .outputRead p t (byteAt a 0)

/-- The request a kind byte and argument bytes spell; none where R169 answers BAD_REQUEST (R187). -/
def decodeRequest (p : Port) (t : Tag) (kind : Byte) (args : List Byte) : Option Instr :=
  match Kind.ofCode kind with
  | none => none
  | some k => if args.length = k.argCount then some (requestOf p t k args) else none

/-- The command byte of SUBMIT (R185). -/
def submitByte : Byte := 0x5A

/-- The command byte of COLLECT (R185). -/
def collectByte : Byte := 0xC3

/-- The sum of a frame's bytes modulo 256 (R166). -/
def byteSum (bs : List Byte) : Byte := bs.foldr (· + ·) 0

/-- The frame checks of R165 and R166 on the bytes clocked in after a SUBMIT's command byte: the tag, the kind byte
and the argument bytes of a frame that passes, none where the frame is discarded. DEDUCED for no bytes: log entry 9. -/
def checkFrame (bytes : List Byte) : Option (Tag × Byte × List Byte) :=
  match bytes with
  | [] => none
  | len :: _ =>
    if len.toNat < 4 ∨ 64 < len.toNat ∨ bytes.length < len.toNat then none
    else if byteSum (bytes.take len.toNat) ≠ 0 then none
    else
      match bytes.take len.toNat with
      | _ :: tag :: kind :: rest =>
        if h : tag.toNat < 16 then some (⟨tag.toNat, h⟩, kind, rest.dropLast) else none
      | _ => none

/-- The command that a SUBMIT of these bytes is, before the port's own checks of the tag (R165, R166, R169). -/
def decodeSubmit (p : Port) (bytes : List Byte) : Instr :=
  match checkFrame bytes with
  | none => .frameDiscard p bytes
  | some (t, kind, args) =>
    match decodeRequest p t kind args with
    | some i => i
    | none => .badRequestFrame p t kind args

/-- A request's port, tag, kind and argument bytes; none for an event (R187). -/
def requestParts (i : Instr) : Option (Port × Tag × Kind × List Byte) :=
  match i with
  | .portAttach p t a b => some (p, t, .portAttach, [a, b])
  | .portSet p t a b => some (p, t, .portSet, [a, b])
  | .portStatus p t a => some (p, t, .portStatus, [a])
  | .portCancel p t a => some (p, t, .portCancel, [a])
  | .portDetach p t => some (p, t, .portDetach, [])
  | .pointDefine p t b => some (p, t, .pointDefine, bytesOfBlock b)
  | .pointFind p t k => some (p, t, .pointFind, bytes32 k)
  | .pointRead p t a b => some (p, t, .pointRead, [a, b])
  | .tableSummary p t a => some (p, t, .tableSummary, [a])
  | .pointRetire p t a b => some (p, t, .pointRetire, [a, b])
  | .pointSample p t a b => some (p, t, .pointSample, [a, b])
  | .editOpen p t a b => some (p, t, .editOpen, [a, b])
  | .editSet p t a b f q v => some (p, t, .editSet, [a, b, f, q] ++ bytes64 v)
  | .editCommit p t a b => some (p, t, .editCommit, [a, b])
  | .editDrop p t a b => some (p, t, .editDrop, [a, b])
  | .classConfig p t c q n => some (p, t, .classConfig, [c, q] ++ bytes16 n)
  | .classStart p t c => some (p, t, .classStart, [c])
  | .classStop p t c => some (p, t, .classStop, [c])
  | .classTrigger p t c => some (p, t, .classTrigger, [c])
  | .classStatus p t c q => some (p, t, .classStatus, [c, q])
  | .listInsert p t c a b n => some (p, t, .listInsert, [c, a, b, n])
  | .listRemove p t c a b => some (p, t, .listRemove, [c, a, b])
  | .listRead p t c => some (p, t, .listRead, [c])
  | .convertDirect p t c g => some (p, t, .convertDirect, [c, g])
  | .noticeFetch p t => some (p, t, .noticeFetch, [])
  | .noticeWait p t n => some (p, t, .noticeWait, bytes16 n)
  | .noticeAck p t a b => some (p, t, .noticeAck, [a, b])
  | .actionCreate p t m o d b f => some (p, t, .actionCreate, [m, o] ++ bytes16 d ++ [b, f])
  | .actionLink p t n a b => some (p, t, .actionLink, [n, a, b])
  | .actionUnlink p t a b => some (p, t, .actionUnlink, [a, b])
  | .actionRearm p t n b => some (p, t, .actionRearm, [n, b])
  | .actionFree p t n => some (p, t, .actionFree, [n])
  | .actionRead p t n => some (p, t, .actionRead, [n])
  | .outputWrite p t c v => some (p, t, .outputWrite, [c] ++ bytes16 v)
  | .outputPin p t c => some (p, t, .outputPin, [c])
  | .outputUnpin p t c => some (p, t, .outputUnpin, [c])
  | .outputFallback p t c q v => some (p, t, .outputFallback, [c, q] ++ bytes16 v)
  | .outputRead p t c => some (p, t, .outputRead, [c])
  | .powerUp _ _ _ | .deviceReset | .rstnRelease _ _ | .prstnAssert _ | .prstnRelease _ _
  | .badCommandByte _ _ | .frameDiscard _ _ | .badRequestFrame _ _ _ _ | .collect _ _
  | .periodExpiry _ | .xtRisingEdge _ | .grant | .settlingElapsed | .conversionComplete _
  | .claimLapse _ | .staleExpiry _ | .waitTimeout _ | .requestRefusal _ _ _ _ => none

/-- A whole frame around a tag, a kind byte and argument bytes: the length first, the check byte last (R185). -/
def frameBytes (t : Tag) (kind : Byte) (args : List Byte) : List Byte :=
  let body := BitVec.ofNat 8 (args.length + 4) :: BitVec.ofNat 8 t.val :: kind :: args
  body ++ [0 - byteSum body]

/-- The frame that carries a request (R185, R187); none for an event. -/
def encodeFrame (i : Instr) : Option (List Byte) :=
  match requestParts i with
  | none => none
  | some (_, t, k, args) => some (frameBytes t k.code args)

end Sys2Proof
end

