-- ==== Sys2Proof/Config.lean ====
section
/-! DEFINITION. The figures of the part that shape behaviour (R73, R74) and the free values the manual leaves open: they
have no body, so no proof can rest on a value of theirs. -/

namespace Sys2Proof.Config

/-- The level of an analog input at the `n`-th event that the part takes on its own, in steps of a 64th of a G1 reading:
what the inputs carry is outside the manual. Free value. -/
opaque analogInput : ChannelNo → Nat → Int

/-- Which of several events that fall due together is taken first: the manual gives both orders (R184). Free value. -/
opaque dueChoice : Nat → Nat

/-- Microseconds from the entry into SAMPLING to the completion (R74). -/
def conversionTime : Nat := 5

/-- Microseconds in the 1 ms tick of claim expiries, stale timers and wait timeouts. -/
def msTick : Nat := 1000

/-- Microseconds in the unit of a scan period (R52). -/
def scanUnit : Nat := 100

/-- The default claim timeout in 10 ms steps: 500 ms (R163, R174). -/
def defaultTimeoutSteps : Nat := 50

/-- The most entries a scan list holds (R47). -/
def listCapacity : Nat := 48

/-- The most tags a port has open (R163). -/
def tagCapacity : Nat := 4

/-- The refusal slots of a port (R163). -/
def refusalCapacity : Nat := 2

end Sys2Proof.Config
end

