-- ==== Sys2Proof/Machine/State.lean ====
section
/-! DEFINITION. Everything the manual gives the SP128 to keep, block by block, and its values after device reset. Times
are kept as the microsecond at which they fall due, on the model's own clock `now` (log entry 3). -/

namespace Sys2Proof.Machine

/-! ## The point table (R1 to R26) -/

/-- A slot is FREE or holds a point (R1). -/
inductive SlotState where
  | free | defined
deriving DecidableEq, Repr

/-- The gain codes (R70, R189). -/
inductive Gain where
  | g1 | g4 | g16 | g64
deriving DecidableEq, Repr

/-- How a point's notices behave on return to NORMAL (R5). -/
inductive Policy where
  | latched | follow
deriving DecidableEq, Repr

/-- Which port may receive a point's notices (R5, R119). -/
inductive Route where
  | h | l | either
deriving DecidableEq, Repr

/-- How far a point's value can be trusted (R7). -/
inductive Quality where
  | unsampled | good | clipped | stale
deriving DecidableEq, Repr

/-- A point's standing against its limits (R7). -/
inductive Condition where
  | normal | lo | lolo | hi | hihi
deriving DecidableEq, Repr

/-- A scale: both signed (R5, R6). -/
structure Scale where
  offset : Word32
  span : Word32
deriving DecidableEq, Repr

/-- The configuration fields that a definition sets and a staged copy carries (R5, R27). -/
structure PointConfig where
  channel : ChannelNo
  gain : Gain
  scale : Option Scale
  lolo : Option Word32
  lo : Option Word32
  hi : Option Word32
  hihi : Option Word32
  deadband : Word16
  /-- 1–8. -/
  confirm : Nat
  /-- Milliseconds, 10–60000. -/
  staleInterval : Option Nat
  severity : Severity
  policy : Policy
  route : Route
  notifyClear : Bool
  notifyQuality : Bool
deriving DecidableEq, Repr

/-- A present claim (R27). -/
structure Claim where
  owner : Port
  staged : PointConfig
  /-- The microsecond at which the claim's expiry has elapsed (R28). -/
  due : Nat
deriving DecidableEq, Repr

/-- One point record with its slot's state and generation (R1, R2, R5, R7, R8). -/
structure PointSlot where
  state : SlotState
  gen : Generation
  key : Word32
  cfg : PointConfig
  link : Option ActionNo
  raw : RawReading
  value : Word32
  quality : Quality
  condition : Condition
  pendingCandidate : Option Condition
  /-- 0–7. -/
  pendingCount : Nat
  sampleSeq : Word16
  /-- Stopped, or the microsecond at which the stale timer expires (R104). -/
  staleTimer : Option Nat
  claim : Option Claim
deriving DecidableEq, Repr

/-- The configuration of a record after device reset (R26). -/
def PointConfig.reset : PointConfig where
  channel := 0
  gain := .g1
  scale := none
  lolo := none
  lo := none
  hi := none
  hihi := none
  deadband := 0
  confirm := 1
  staleInterval := none
  severity := 0
  policy := .latched
  route := .either
  notifyClear := false
  notifyQuality := false

/-- A FREE slot of a generation, every other field as after device reset (R22, R26). -/
def PointSlot.freed (g : Generation) : PointSlot where
  state := .free
  gen := g
  key := 0
  cfg := PointConfig.reset
  link := none
  raw := 0
  value := 0
  quality := .unsampled
  condition := .normal
  pendingCandidate := none
  pendingCount := 0
  sampleSeq := 0
  staleTimer := none
  claim := none

/-- One entry of the key map (R3). -/
structure KeyEntry where
  key : Word32
  slot : SlotNo
deriving DecidableEq, Repr

/-! ## The scan scheduler (R45 to R69) -/

/-- What starts a pass of a class (R45). -/
inductive TriggerSource where
  | periodic | ext0 | ext1 | onRequest
deriving DecidableEq, Repr

/-- The states of a class (R45). -/
inductive ClassState where
  | stopped | waiting | running | stopping
deriving DecidableEq, Repr

/-- An entry of a scan list (R47). -/
structure ListEntry where
  slot : SlotNo
  gen : Generation
deriving DecidableEq, Repr

/-- The record a class job carries (R56). -/
structure ScanJob where
  slot : SlotNo
  gen : Generation
  channel : ChannelNo
  gain : Gain
deriving DecidableEq, Repr

/-- Whether a class's current job waits for the arbiter or is in the converter (R45, R57). -/
inductive JobPhase where
  | posted | converting
deriving DecidableEq, Repr

/-- A class's current job (R56). -/
structure CurrentJob where
  job : ScanJob
  phase : JobPhase
deriving DecidableEq, Repr

/-- A class record (R45). -/
structure ScanClass where
  source : TriggerSource
  /-- In units of 100 µs, 1–65535. -/
  period : Word16
  state : ClassState
  list : List ListEntry
  cursor : Nat
  job : Option CurrentJob
  removedMark : Bool
  passSeq : Word16
  /-- 0–255, saturating. -/
  overruns : Nat
  /-- Stopped, or the microsecond of the next expiry (R52). -/
  periodTimer : Option Nat
deriving DecidableEq, Repr

/-- A class after device reset (R45). -/
def ScanClass.reset : ScanClass where
  source := .onRequest
  period := 10000
  state := .stopped
  list := []
  cursor := 0
  job := none
  removedMark := false
  passSeq := 0
  overruns := 0
  periodTimer := none

/-- What a trigger did (R54). -/
inductive TriggerOutcome where
  | started | overrun | ignored
deriving DecidableEq, Repr

/-! ## The conversion front end (R70 to R86) -/

/-- What becomes of a direct job's sample (R75). -/
inductive Disposition where
  | answer | discard
deriving DecidableEq, Repr

/-- The two kinds of direct job, with what each fixes at acceptance (R75). -/
inductive DirectTarget where
  | convert (channel : ChannelNo) (gain : Gain)
  | sample (slot : SlotNo) (gen : Generation)
deriving DecidableEq, Repr

/-- A direct job's record (R75). -/
structure DirectJob where
  port : Port
  tag : Tag
  target : DirectTarget
  disposition : Disposition
deriving DecidableEq, Repr

/-- A job the converter holds. A class job and a CONVERT.DIRECT job carry their selection; a POINT.SAMPLE job has the
channel and gain it took from the point at the grant (R75, R80). -/
inductive HeldJob where
  | scan (cls : ClassNo) (job : ScanJob)
  | direct (job : DirectJob) (channel : ChannelNo) (gain : Gain)
deriving DecidableEq, Repr

/-- The gain a held job is converted at (R73, R75, R80). -/
def HeldJob.gain : HeldJob → Gain
  | .scan _ j => j.gain
  | .direct _ _ g => g

/-- The input a held job converts (R70, R73, R75, R80). -/
def HeldJob.channel : HeldJob → ChannelNo
  | .scan _ j => j.channel
  | .direct _ ch _ => ch

/-- The converter: IDLE, or SETTLING or SAMPLING with the job it was granted and the microsecond at which that state
ends (R71, R73, R74). -/
inductive Converter where
  | idle
  | settling (job : HeldJob) (due : Nat)
  | sampling (job : HeldJob) (due : Nat)
deriving DecidableEq, Repr

/-- The channel and gain the multiplexer and gain stage are set to (R72). -/
structure Selection where
  channel : ChannelNo
  gain : Gain
deriving DecidableEq, Repr

/-- The front end's own state (R86). -/
structure FrontEnd where
  converter : Converter
  /-- The open selection; absent is NONE. -/
  openSel : Option Selection
  /-- The direct queue, its head first (R76). -/
  queue : List DirectJob
deriving DecidableEq, Repr

/-! ## The notice unit (R109 to R133) -/

/-- What a notice reports (R110). -/
inductive Cause where
  | entered | cleared | stale | clipped | actionSpent | actionBlocked
deriving DecidableEq, Repr

/-- Whether a notice waits for delivery or is out with a port (R110). -/
inductive NoticeState where
  | pending
  | delivered (p : Port)
deriving DecidableEq, Repr

/-- The raises held with a delivered notice (R110, R114). -/
structure FollowOn where
  cause : Cause
  condition : Condition
  severity : Severity
deriving DecidableEq, Repr

/-- A notice record; its slot is its place in the notice set (R110). -/
structure Notice where
  gen : Generation
  cause : Cause
  condition : Condition
  severity : Severity
  seq : Word32
  /-- 1–255, saturating. -/
  count : Nat
  state : NoticeState
  followOn : Option FollowOn
deriving DecidableEq, Repr

/-- A waiting NOTICE.WAIT, with the microsecond at which its timeout has elapsed (R124, R127). -/
structure WaitRec where
  port : Port
  tag : Tag
  due : Nat
deriving DecidableEq, Repr

/-! ## The action unit and the output stage (R134 to R162) -/

/-- The states of an action record (R134). -/
inductive ActionState where
  | free | armed | spent
deriving DecidableEq, Repr

/-- The conditions that cause an action to run (R134). -/
structure TriggerSet where
  lo : Bool
  lolo : Bool
  hi : Bool
  hihi : Bool
deriving DecidableEq, Repr

/-- An action record (R134). -/
structure ActionRec where
  state : ActionState
  triggers : TriggerSet
  output : OutputNo
  drive : Level
  /-- 1–255 while ARMED, 0 otherwise. -/
  budget : Nat
  suppress : Bool
  notifySpent : Bool
  restore : Bool
  /-- 0–128. -/
  linkCount : Nat
deriving DecidableEq, Repr

/-- An action record after device reset (R134). -/
def ActionRec.reset : ActionRec where
  state := .free
  triggers := { lo := false, lolo := false, hi := false, hihi := false }
  output := 0
  drive := 0
  budget := 0
  suppress := false
  notifySpent := false
  restore := false
  linkCount := 0

/-- What set an output channel's value last (R151, R152). -/
inductive LastWriter where
  | reset
  | port (p : Port)
  | action (a : ActionNo) (slot : SlotNo)
  | restore
  | fallback
deriving DecidableEq, Repr

/-- An output channel record; AOUTn follows `value` (R151). -/
structure OutputChannel where
  value : Level
  lastWriter : LastWriter
  saved : Option Level
  pin : Option Port
  fallback : Option Level
deriving DecidableEq, Repr

/-- An output channel after device reset (R151). -/
def OutputChannel.reset : OutputChannel where
  value := 0
  lastWriter := .reset
  saved := none
  pin := none
  fallback := none

/-! ## The request ports (R163 to R184) -/

/-- The result codes (R186). -/
inductive ResultCode where
  | ok | none | busy | tagInUse | notAttached | alreadyAttached | badRequest | badArgument
  | staleRef | notFound | keyInUse | tableFull | claimed | noClaim | invalidLimits
  | alreadyListed | notListed | listFull | classActive | classStopped | linked | notLinked
  | actionNotArmed | inUse | noFreeAction | pinned | notPinned | notDelivered | cancelled
  | notOutstanding
deriving DecidableEq, Repr

/-- A port's session (R163). -/
inductive Session where
  | detached | attached
deriving DecidableEq, Repr

/-- The place of an open tag (R163, R170). -/
inductive TagPlace where
  | waiting | answered
deriving DecidableEq, Repr

/-- An open tag with its request's kind byte (R163). -/
structure OpenTag where
  tag : Tag
  kind : Byte
  place : TagPlace
deriving DecidableEq, Repr

/-- An answer in a response queue, or a refusal in a slot: the tag, the kind byte as it arrived, the result and its
data (R168, R171). -/
structure Answer where
  tag : Tag
  kind : Byte
  code : ResultCode
  data : List Byte
deriving DecidableEq, Repr

/-- What a COLLECT under way has still to do (R172). -/
inductive CollectPhase where
  /-- The chosen refusal (true) or answer, or the empty indication, is being clocked out; `rest` is what is left. -/
  | frame (chosen : Option (Bool × Answer)) (rest : List Byte)
  /-- What was chosen has been clocked out, and what is left of the summary taken then. -/
  | summary (rest : List Byte)
  /-- The select period is one that the port ignores (R191). -/
  | ignored
deriving DecidableEq, Repr

/-- A port record (R163), with the port's pins. -/
structure PortRec where
  session : Session
  /-- The claim timeout in 10 ms steps, 1–255. -/
  timeoutSteps : Nat
  threshold : Severity
  /-- In the order of acceptance. -/
  openTags : List OpenTag
  /-- Oldest first. -/
  queue : List Answer
  /-- The held refusals, oldest first; two slots. -/
  refusals : List Answer
  /-- 0–255, saturating. -/
  frameErrors : Nat
  /-- 0–255, saturating. -/
  dropped : Nat
  /-- ATTn is asserted (R173). -/
  attention : Bool
  /-- PRSTn is asserted (R182). -/
  prstAsserted : Bool
  /-- The select period under way began while RSTn or PRSTn was asserted, so the port ignores it (R191).
  DESIGN CHOICE: log entry 11. -/
  selectIgnored : Bool
  /-- The COLLECT under way on the port, if there is one (R164, R172). DESIGN CHOICE: log entry 8. -/
  collecting : Option CollectPhase
  /-- The bytes the port's last COLLECT drove on data-out (R172). DESIGN CHOICE: log entry 12. -/
  clockedOut : List Byte
deriving DecidableEq, Repr

/-- A port after device reset (R163, R183). -/
def PortRec.reset : PortRec where
  session := .detached
  timeoutSteps := Config.defaultTimeoutSteps
  threshold := 0
  openTags := []
  queue := []
  refusals := []
  frameErrors := 0
  dropped := 0
  attention := false
  prstAsserted := false
  selectIgnored := false
  collecting := none
  clockedOut := []

/-! ## The whole part -/

/-- The reasons a step stops with a fault. The manual gives the part no error state and every command an effect, so
there is none: no command of the table can fault. -/
inductive Fault where
deriving DecidableEq, Repr

/-- The reasons a step has no meaning. -/
inductive Refusal where
  /-- Raised by an arm of `exec` whose command has no meaning in the model; safe. No arm raises it. -/
  | notModelled (mnemonic : String)
deriving DecidableEq, Repr

/-- The state of the SP128 and the queue of commands waiting to be taken. -/
structure State where
  /-- The commands waiting, first in, first out. -/
  pending : List Instr
  /-- The model's clock, in microseconds. DESIGN CHOICE: log entry 3. -/
  now : Nat
  /-- The model's counter that picks free values. DESIGN CHOICE: log entry 5. -/
  freeIndex : Nat
  /-- RSTn is asserted (R191). -/
  rstAsserted : Bool
  /-- The point records (R1). -/
  slots : Vector PointSlot 128
  /-- The key map (R3). DESIGN CHOICE: log entry 18. -/
  keyMap : List KeyEntry
  /-- The scan classes (R45). -/
  classes : Vector ScanClass 4
  /-- The conversion front end (R86). -/
  frontEnd : FrontEnd
  /-- The notice set, one place for each slot (R109). -/
  notices : Vector (Option Notice) 128
  /-- The raise sequence counter (R111). -/
  raiseSeq : Word32
  /-- The waiting NOTICE.WAIT requests, in the order of acceptance (R124). -/
  waits : List WaitRec
  /-- The action records (R134). -/
  actions : Vector ActionRec 16
  /-- The output channel records (R151). -/
  outputs : Vector OutputChannel 4
  portH : PortRec
  portL : PortRec
deriving DecidableEq, Repr

/-- The part after device reset, with RSTn and both PRSTn released and no command waiting (R26, R45, R86, R133, R134,
R151, R163). DESIGN CHOICE: log entry 13 for the lines and the model's own fields. -/
def State.reset : State where
  pending := []
  now := 0
  freeIndex := 0
  rstAsserted := false
  slots := Vector.replicate 128 (PointSlot.freed 0)
  keyMap := []
  classes := Vector.replicate 4 ScanClass.reset
  frontEnd := { converter := .idle, openSel := none, queue := [] }
  notices := Vector.replicate 128 none
  raiseSeq := 0
  waits := []
  actions := Vector.replicate 16 ActionRec.reset
  outputs := Vector.replicate 4 OutputChannel.reset
  portH := PortRec.reset
  portL := PortRec.reset

end Sys2Proof.Machine
end

