-- ==== Sys2Proof/Machine/Ops.lean ====
section
/-! DEFINITION. The named operations over the part's records: reading and writing one record, the reference check of R4,
the timers and the port's traffic. A block of this kind takes no exception: it raises ATTn and queues answers. -/

namespace Sys2Proof.Machine

/-- Every slot, in increasing order. -/
def allSlots : List SlotNo := List.finRange 128

/-- Every class, in increasing order. -/
def allClasses : List ClassNo := List.finRange 4

/-- Every action record, in increasing order. -/
def allActions : List ActionNo := List.finRange 16

namespace State

/-! ## Records -/

def slot (s : State) (i : SlotNo) : PointSlot := s.slots[i]

def setSlot (s : State) (i : SlotNo) (r : PointSlot) : State := { s with slots := s.slots.set i r }

def cls (s : State) (c : ClassNo) : ScanClass := s.classes[c]

def setCls (s : State) (c : ClassNo) (r : ScanClass) : State := { s with classes := s.classes.set c r }

/-- A slot's notice, if it has one (R109). -/
def notice (s : State) (i : SlotNo) : Option Notice := s.notices[i]

def setNotice (s : State) (i : SlotNo) (n : Option Notice) : State := { s with notices := s.notices.set i n }

def action (s : State) (a : ActionNo) : ActionRec := s.actions[a]

def setAction (s : State) (a : ActionNo) (r : ActionRec) : State := { s with actions := s.actions.set a r }

def output (s : State) (o : OutputNo) : OutputChannel := s.outputs[o]

def setOutput (s : State) (o : OutputNo) (r : OutputChannel) : State := { s with outputs := s.outputs.set o r }

/-- The level AOUTn drives (R151). -/
def aout (s : State) (o : OutputNo) : Level := (s.output o).value

def port (s : State) : Port → PortRec
  | .H => s.portH
  | .L => s.portL

def setPort (s : State) (p : Port) (r : PortRec) : State :=
  match p with
  | .H => { s with portH := r }
  | .L => { s with portL := r }

def setKeyMap (s : State) (m : List KeyEntry) : State := { s with keyMap := m }

def setFrontEnd (s : State) (fe : FrontEnd) : State := { s with frontEnd := fe }

def setWaits (s : State) (ws : List WaitRec) : State := { s with waits := ws }

/-- The raise sequence counter goes up by one (R111). -/
def countRaise (s : State) : State := { s with raiseSeq := s.raiseSeq + 1 }

/-- Every point record passed through `f`. -/
def mapSlots (s : State) (f : PointSlot → PointSlot) : State := { s with slots := s.slots.map f }

/-- Every notice passed through `f`. -/
def mapNotices (s : State) (f : Notice → Notice) : State :=
  { s with notices := s.notices.map fun n => n.map f }

/-- Every output channel passed through `f`. -/
def mapOutputs (s : State) (f : OutputChannel → OutputChannel) : State :=
  { s with outputs := s.outputs.map f }

/-- The port has a session. -/
def attached (s : State) (p : Port) : Bool := (s.port p).session == .attached

/-! ## References and the key map (R3, R4) -/

/-- The slot is DEFINED with this generation. -/
def names (s : State) (i : SlotNo) (g : Generation) : Bool :=
  (s.slot i).state == .defined && (s.slot i).gen == g

/-- The slot the key map relates a key to (R3). -/
def keySlot (s : State) (k : Word32) : Option SlotNo :=
  (s.keyMap.find? fun e => e.key == k).map KeyEntry.slot

/-- The lowest-numbered FREE slot (R11). -/
def lowestFree (s : State) : Option SlotNo := allSlots.find? fun i => (s.slot i).state == .free

/-- The number of DEFINED points (R16). -/
def definedCount (s : State) : Nat := allSlots.countP fun i => (s.slot i).state == .defined

/-- The lowest-numbered FREE action record (R136). -/
def lowestFreeAction (s : State) : Option ActionNo := allActions.find? fun a => (s.action a).state == .free

/-! ## Time -/

/-- The clock has reached the time an event fell due. DESIGN CHOICE: log entry 4. -/
def advanceTo (s : State) (due : Nat) : State := { s with now := max s.now due }

/-- The whole milliseconds left to a due time, rounded up and at least 1 (R14, R104). DEDUCED:
log entry 17. -/
def remainingMs (s : State) (due : Nat) : Nat := max 1 ((due - s.now + (Config.msTick - 1)) / Config.msTick)

/-- The microsecond at which a port's claim timeout, started now, elapses (R28). -/
def claimDue (s : State) (p : Port) : Nat := s.now + (s.port p).timeoutSteps * 10 * Config.msTick

/-- A start or restart of a point's stale timer with its full interval; no effect where the interval is absent (R50). -/
def startTimer (s : State) (i : SlotNo) : State :=
  match (s.slot i).cfg.staleInterval with
  | none => s
  | some ms => s.setSlot i { s.slot i with staleTimer := some (s.now + ms * Config.msTick) }

/-- A stop of a point's stale timer (R50). -/
def stopTimer (s : State) (i : SlotNo) : State := s.setSlot i { s.slot i with staleTimer := none }

/-! ## A port's traffic (R167 to R171) -/

/-- The tag is one of the port's open tags. -/
def tagOpen (s : State) (p : Port) (t : Tag) : Bool := (s.port p).openTags.any fun e => e.tag == t

/-- The port's waiting request of a tag, if there is one. -/
def waitingTag (s : State) (p : Port) (t : Tag) : Option OpenTag :=
  (s.port p).openTags.find? fun e => e.tag == t && e.place == .waiting

/-- Opens a tag with its request's kind and the place WAITING (R169). -/
def openTag (s : State) (p : Port) (t : Tag) (kind : Byte) : State :=
  s.setPort p { s.port p with
    openTags := (s.port p).openTags ++ [{ tag := t, kind := kind, place := .waiting }] }

/-- Answers a waiting request: its answer joins the queue and its tag becomes ANSWERED (R170, R171, R177). -/
def answerTag (s : State) (p : Port) (t : Tag) (code : ResultCode) (data : List Byte) : State :=
  match s.waitingTag p t with
  | none => s
  | some e =>
    s.setPort p { s.port p with
      openTags := (s.port p).openTags.map fun x => if x.tag = t then { x with place := .answered } else x
      queue := (s.port p).queue ++ [{ tag := t, kind := e.kind, code := code, data := data }] }

/-- Counts a frame error, unless the count is 255 (R164, R166). -/
def countFrameError (s : State) (p : Port) : State :=
  s.setPort p { s.port p with frameErrors := min 255 ((s.port p).frameErrors + 1) }

/-- Places a refusal in a slot behind those held, or drops and counts it (R168). -/
def refuse (s : State) (p : Port) (t : Tag) (kind : Byte) (code : ResultCode) : State :=
  if (s.port p).refusals.length < Config.refusalCapacity then
    s.setPort p { s.port p with
      refusals := (s.port p).refusals ++ [{ tag := t, kind := kind, code := code, data := [] }] }
  else
    s.setPort p { s.port p with dropped := min 255 ((s.port p).dropped + 1) }

/-! ## Output channels (R152) -/

/-- Drops the saved value of each channel whose last writer meets `who` (R138, R140). -/
def dropSaved (s : State) (who : LastWriter → Bool) : State :=
  s.mapOutputs fun o => if who o.lastWriter then { o with saved := none } else o

end State

/-- The last writer is action `a`, with any slot. -/
def LastWriter.isAction (a : ActionNo) : LastWriter → Bool
  | .action b _ => a == b
  | _ => false

/-- The last writer is action `a` with slot `i`. -/
def LastWriter.isDrive (a : ActionNo) (i : SlotNo) : LastWriter → Bool
  | .action b j => a == b && i == j
  | _ => false

/-- The answer an owner gives: at once, or later when the request waits (R169). -/
inductive Reply where
  | done (code : ResultCode) (data : List Byte)
  | waits
deriving DecidableEq, Repr

end Sys2Proof.Machine
end

