-- ==== Sys2Proof/Machine/Flags.lean ====
section
/-! DEFINITION. What the part computes from its inputs and records: the reading of an input and its clipped flag, whether
a notice is deliverable to a port, and the attention lines (R70, R119, R121, R173). -/

namespace Sys2Proof.Machine

/-- The amplification of a gain (R70). -/
def Gain.factor : Gain → Int
  | .g1 => 1
  | .g4 => 4
  | .g16 => 16
  | .g64 => 64

/-- The raw reading of an input at a gain: the amplified input in whole steps, held in the converter's range. The input
is in steps of a 64th of a G1 reading (R70). DESIGN CHOICE: log entry 15. -/
def Gain.reading (g : Gain) (input : Int) : RawReading :=
  BitVec.ofNat 14 (max 0 (min 16383 ((input * g.factor).fdiv 64))).toNat

/-- A reading at either end of the converter's range is clipped (R70). -/
def clippedFlag (raw : RawReading) : Bool := raw == 0 || raw == 16383

/-- A route admits a port (R119). -/
def Route.admits : Route → Port → Bool
  | .h, .H => true
  | .h, .L => false
  | .l, .H => false
  | .l, .L => true
  | .either, _ => true

namespace State

/-- The notice of a slot that is deliverable to a port, if it is (R119). -/
def deliverable (s : State) (p : Port) (i : SlotNo) : Option Notice :=
  match s.notice i with
  | none => none
  | some n =>
    if n.state = .pending ∧ (s.slot i).cfg.route.admits p = true ∧
        (s.port p).threshold ≤ n.severity ∧ s.attached p = true then some n
    else none

/-- The number of notices deliverable to a port (R172). -/
def deliverableCount (s : State) (p : Port) : Nat := allSlots.countP fun i => (s.deliverable p i).isSome

/-- At least one notice is deliverable to the port. -/
def anyDeliverable (s : State) (p : Port) : Bool := allSlots.any fun i => (s.deliverable p i).isSome

/-- What ATTn of a port shows at the end of an event (R121, R173). -/
def attentionNeeded (s : State) (p : Port) : Bool :=
  !(s.port p).refusals.isEmpty || !(s.port p).queue.isEmpty || s.anyDeliverable p

/-- Sets one port's ATTn from what stands. -/
def setAttention (s : State) (p : Port) : State :=
  s.setPort p { s.port p with attention := s.attentionNeeded p }

/-- Sets both attention lines at the end of an event (R121, R173). -/
def updateAttention (s : State) : State := (s.setAttention .H).setAttention .L

end State

end Sys2Proof.Machine
end

