-- ==== Sys2Proof/Machine/Operands.lean ====
section
/-! DEFINITION. The operand forms: what an argument byte or quantity stands for, none where the field cannot take the
value and the owner answers BAD_ARGUMENT (R5, R187, R189). -/

namespace Sys2Proof.Machine

/-- A slot byte, 0–127 (R4). -/
def slotOf (b : Byte) : Option SlotNo :=
  if h : b.toNat < 128 then some ⟨b.toNat, h⟩ else none

/-- A class byte, 0–3. -/
def classOf (b : Byte) : Option ClassNo :=
  if h : b.toNat < 4 then some ⟨b.toNat, h⟩ else none

/-- An output channel byte, 0–3. -/
def outputOf (b : Byte) : Option OutputNo :=
  if h : b.toNat < 4 then some ⟨b.toNat, h⟩ else none

/-- An action byte, 0–15. -/
def actionOf (b : Byte) : Option ActionNo :=
  if h : b.toNat < 16 then some ⟨b.toNat, h⟩ else none

/-- A tag byte, 0–15. -/
def tagOf (b : Byte) : Option Tag :=
  if h : b.toNat < 16 then some ⟨b.toNat, h⟩ else none

/-- An analog channel byte, 0–23. -/
def channelOf (b : Byte) : Option ChannelNo :=
  if h : b.toNat < 24 then some ⟨b.toNat, h⟩ else none

/-- A severity byte, 0–7. -/
def severityOf (b : Byte) : Option Severity :=
  if h : b.toNat < 8 then some ⟨b.toNat, h⟩ else none

/-- A gain code (R189). -/
def gainOf (b : Byte) : Option Gain :=
  if b = 0 then some .g1 else if b = 1 then some .g4
  else if b = 2 then some .g16 else if b = 3 then some .g64 else none

/-- A policy code (R189). -/
def policyOf (b : Byte) : Option Policy :=
  if b = 0 then some .latched else if b = 1 then some .follow else none

/-- A route code (R189). -/
def routeOf (b : Byte) : Option Route :=
  if b = 0 then some .h else if b = 1 then some .l else if b = 2 then some .either else none

/-- A trigger source code (R189). -/
def sourceOf (b : Byte) : Option TriggerSource :=
  if b = 0 then some .periodic else if b = 1 then some .ext0
  else if b = 2 then some .ext1 else if b = 3 then some .onRequest else none

/-- A yes or no byte, or a presence byte: 0 or 1 (R187, R189). -/
def yesNoOf (b : Byte) : Option Bool :=
  if b = 0 then some false else if b = 1 then some true else none

/-- A confirm byte, 1–8 (R5). -/
def confirmOf (b : Byte) : Option Nat :=
  if 1 ≤ b.toNat ∧ b.toNat ≤ 8 then some b.toNat else none

/-- A stale interval, 10–60000 ms (R5). -/
def staleOf (w : Word16) : Option Nat :=
  if 10 ≤ w.toNat ∧ w.toNat ≤ 60000 then some w.toNat else none

/-- An output level or a drive value, 0–4095 (R136, R153). -/
def levelOf (w : Word16) : Option Level :=
  if w.toNat ≤ 4095 then some (w.setWidth 12) else none

/-- A budget, 1–255 (R136). -/
def budgetOf (b : Byte) : Option Nat :=
  if b = 0 then none else some b.toNat

/-- A claim timeout in 10 ms steps; 0 asks for the default (R174, R187). -/
def timeoutOf (b : Byte) : Nat :=
  if b = 0 then Config.defaultTimeoutSteps else b.toNat

/-- A threshold, 0–7; 0xFF asks for the default, 0 (R174, R187). -/
def thresholdOf (b : Byte) : Option Severity :=
  if b = 0xFF then some 0 else severityOf b

/-- A trigger set: bits 0–3, not empty (R136, R189). -/
def triggersOf (b : Byte) : Option TriggerSet :=
  if b = 0 ∨ 15 < b.toNat then none
  else some { lo := b.getLsbD 0, lolo := b.getLsbD 1, hi := b.getLsbD 2, hihi := b.getLsbD 3 }

/-- The three action flags, in the order suppress, notify on spent, restore (R189). -/
def actionFlagsOf (b : Byte) : Option (Bool × Bool × Bool) :=
  if 7 < b.toNat then none else some (b.getLsbD 0, b.getLsbD 1, b.getLsbD 2)

/-- A value that stands only where its presence bit is set (R185). -/
def presentOf {α : Type} (present : Bool) (v : α) : Option α := if present then some v else none

/-- A stale interval that is range-checked only where its presence bit is set (R185). -/
def staleFieldOf (present : Bool) (w : Word16) : Option (Option Nat) :=
  if present then (staleOf w).map some else some none

/-- The configuration a block carries, none where a field is out of range (R5, R188). The key is not looked at. -/
def configOf (b : ConfigBlock) : Option PointConfig := do
  let channel ← channelOf b.channel
  let gain ← gainOf b.gain
  let confirm ← confirmOf b.confirm
  let stale ← staleFieldOf (b.flags.getLsbD 5) b.stale
  let severity ← severityOf b.severity
  let policy ← policyOf b.policy
  let route ← routeOf b.route
  return {
    channel, gain, confirm, severity, policy, route
    scale := presentOf (b.flags.getLsbD 0) { offset := b.offset, span := b.span }
    lolo := presentOf (b.flags.getLsbD 1) b.lolo
    lo := presentOf (b.flags.getLsbD 2) b.lo
    hi := presentOf (b.flags.getLsbD 3) b.hi
    hihi := presentOf (b.flags.getLsbD 4) b.hihi
    deadband := b.deadband
    staleInterval := stale
    notifyClear := b.flags.getLsbD 6
    notifyQuality := b.flags.getLsbD 7 }

/-- The first byte of the value area (R187). -/
def areaByte (a : BitVec 64) : Byte := a.extractLsb' 56 8

/-- The first two bytes of the value area (R187). -/
def areaWord16 (a : BitVec 64) : Word16 := a.extractLsb' 48 16

/-- The first four bytes of the value area (R187). -/
def areaWord32 (a : BitVec 64) : Word32 := a.extractLsb' 32 32

/-- The last four bytes of the value area, where a scale has its span (R187). -/
def areaSpan (a : BitVec 64) : Word32 := a.extractLsb' 0 32

/-- The edit that sets the field a code names to the value at the head of the area; none for a code that names no
editable field or a value out of range (R31, R187). -/
def presentEdit (field : Byte) (a : BitVec 64) : Option (PointConfig → PointConfig) :=
  match field.toNat with
  | 1 => (channelOf (areaByte a)).map fun v c => { c with channel := v }
  | 2 => (gainOf (areaByte a)).map fun v c => { c with gain := v }
  | 3 => some fun c => { c with scale := some { offset := areaWord32 a, span := areaSpan a } }
  | 4 => some fun c => { c with lolo := some (areaWord32 a) }
  | 5 => some fun c => { c with lo := some (areaWord32 a) }
  | 6 => some fun c => { c with hi := some (areaWord32 a) }
  | 7 => some fun c => { c with hihi := some (areaWord32 a) }
  | 8 => some fun c => { c with deadband := areaWord16 a }
  | 9 => (confirmOf (areaByte a)).map fun v c => { c with confirm := v }
  | 10 => (staleOf (areaWord16 a)).map fun v c => { c with staleInterval := some v }
  | 11 => (severityOf (areaByte a)).map fun v c => { c with severity := v }
  | 12 => (policyOf (areaByte a)).map fun v c => { c with policy := v }
  | 13 => (routeOf (areaByte a)).map fun v c => { c with route := v }
  | 14 => (yesNoOf (areaByte a)).map fun v c => { c with notifyClear := v }
  | 15 => (yesNoOf (areaByte a)).map fun v c => { c with notifyQuality := v }
  | _ => none

/-- The edit that makes the optional field a code names absent; none for any other code (R187). -/
def absentEdit (field : Byte) : Option (PointConfig → PointConfig) :=
  match field.toNat with
  | 3 => some fun c => { c with scale := none }
  | 4 => some fun c => { c with lolo := none }
  | 5 => some fun c => { c with lo := none }
  | 6 => some fun c => { c with hi := none }
  | 7 => some fun c => { c with hihi := none }
  | 10 => some fun c => { c with staleInterval := none }
  | _ => none

/-- The edit an EDIT.SET's field code, presence byte and value area ask for; none where R31 step 1 answers
BAD_ARGUMENT. -/
def fieldEdit (field presence : Byte) (a : BitVec 64) : Option (PointConfig → PointConfig) :=
  match yesNoOf presence with
  | none => none
  | some true => presentEdit field a
  | some false => absentEdit field

/-! ## The limit check (R9) and the limits of a configuration -/

/-- Adjacent limits rise strictly, each gap above the deadband; the gap is formed exactly (R9). -/
def gapsPass (deadband : Int) : List Int → Bool
  | a :: b :: rest => decide (a < b) && decide (deadband < b - a) && gapsPass deadband (b :: rest)
  | _ => true

/-- The present limits of a configuration, from LOLO to HIHI. -/
def presentLimits (c : PointConfig) : List Int :=
  ([c.lolo, c.lo, c.hi, c.hihi].filterMap id).map BitVec.toInt

/-- The limit check shared by POINT.DEFINE and EDIT.COMMIT (R9). -/
def limitCheck (c : PointConfig) : Bool := gapsPass c.deadband.toNat (presentLimits c)

/-- The limit that a condition names; NORMAL names none. -/
def limitOf (c : PointConfig) : Condition → Option Word32
  | .normal => none
  | .lo => c.lo
  | .lolo => c.lolo
  | .hi => c.hi
  | .hihi => c.hihi

/-- Whether a condition is in a trigger set; NORMAL never is (R134). -/
def TriggerSet.has (t : TriggerSet) : Condition → Bool
  | .normal => false
  | .lo => t.lo
  | .lolo => t.lolo
  | .hi => t.hi
  | .hihi => t.hihi

end Sys2Proof.Machine
end

