-- ==== Sys2Proof/Machine/Requests.lean ====
section
/-! DEFINITION. The way a command reaches the part: a transaction on a port, a request through the port's own checks to
its owner (R164, R167, R169), and an event of the part's own, which the device reset line holds off (R191). -/

namespace Sys2Proof.Machine

namespace State

/-- The port's COLLECT, if one is under way, is over: select has been deasserted (R164, R172). -/
def endCollect (s : State) (p : Port) : State := s.setPort p { s.port p with collecting := none }

/-- A transaction on a port that begins in a new select period, so that a COLLECT under way is over. None is taken while
RSTn or the port's PRSTn is asserted, nor in a select period that began before the release; the attention lines are
set at the end of one that is (R164, R173, R191). DESIGN CHOICE: log entries 8 and 11. -/
def transaction (s : State) (p : Port) (act : State → State) : State :=
  if s.rstAsserted = true ∨ (s.port p).prstAsserted = true then s
  else if (s.port p).selectIgnored = true then s.setPort p { s.port p with selectIgnored := false, collecting := none }
  else (act (s.endCollect p)).updateAttention

/-- An event of the part's own: nothing runs while RSTn is asserted, and the attention lines are set at its end
(R173, R191). -/
def event (s : State) (act : State → State) : State :=
  if s.rstAsserted = true then s else (act s).updateAttention

/-- Gives an owner's answer, if it answers at once (R169). -/
def giveReply (s : State) (p : Port) (t : Tag) (r : Reply) : State :=
  match r with
  | .done code data => s.answerTag p t code data
  | .waits => s

/-- Acceptance: the tag opens, then the session check, then the owner (R169). -/
def accept (s : State) (p : Port) (t : Tag) (kind : Byte) (needsSession : Bool)
    (owner : State → State × Reply) : State :=
  if needsSession = true ∧ s.attached p = false then (s.openTag p t kind).answerTag p t .notAttached []
  else (owner (s.openTag p t kind)).1.giveReply p t (owner (s.openTag p t kind)).2

/-- A frame that passed the frame checks: the port's checks of the tag, then acceptance (R167, R169). -/
def submit (s : State) (p : Port) (t : Tag) (kind : Byte) (needsSession : Bool)
    (owner : State → State × Reply) : State :=
  s.transaction p fun s =>
    if s.tagOpen p t = true then s.refuse p t kind .tagInUse
    else if Config.tagCapacity ≤ (s.port p).openTags.length then s.refuse p t kind .busy
    else s.accept p t kind needsSession owner

/-- A request of a known kind; every kind but PORT.ATTACH needs a session (R169). -/
def request (s : State) (p : Port) (t : Tag) (k : Kind) (owner : State → State × Reply) : State :=
  s.submit p t k.code (k != .portAttach) owner

/-- An answer at once that leaves the rest of the state as it was. -/
def reply (s : State) (code : ResultCode) (data : List Byte := []) : State × Reply := (s, .done code data)

/-- The reference check of R4, once the request's other arguments are known to be in range: the request goes on with
the slot, or is answered BAD_ARGUMENT or STALE_REF. -/
def withRef (s : State) (slot gen : Byte) (go : SlotNo → State × Reply) : State × Reply :=
  match slotOf slot with
  | none => s.reply .badArgument
  | some i => if s.names i gen = true then go i else s.reply .staleRef

end State

end Sys2Proof.Machine
end

