-- ==== Sys2Proof/Machine/SchedulerOps.lean ====
section
/-! DEFINITION. The shared operations of the scan scheduler: list membership, the stale timers of listed points, the
pass and its cursor (R47, R50, R55 to R66). -/

namespace Sys2Proof.Machine

/-- The index of a point's entry in a class's list. -/
def ScanClass.indexOf (k : ScanClass) (i : SlotNo) (g : Generation) : Option Nat :=
  k.list.findIdx? fun e => e.slot == i && e.gen == g

namespace State

/-- The class and the index of the entry that names a slot's point, if it is listed (R14, R47). -/
def membership (s : State) (i : SlotNo) : Option (ClassNo × Nat) :=
  allClasses.findSome? fun c => ((s.cls c).indexOf i (s.slot i).gen).map fun k => (c, k)

/-- The point is listed in a class that is WAITING, RUNNING or STOPPING (R36, R91). -/
def listedActive (s : State) (i : SlotNo) : Bool :=
  match s.membership i with
  | none => false
  | some (c, _) => (s.cls c).state != .stopped

/-- Starts the stale timers of the points of a list (R50, R51). -/
def startTimers (s : State) (es : List ListEntry) : State := es.foldl (fun s e => s.startTimer e.slot) s

/-- Stops the stale timers of the points of a list (R50, R66). -/
def stopTimers (s : State) (es : List ListEntry) : State := es.foldl (fun s e => s.stopTimer e.slot) s

/-- The record of a job for a list entry, with the point's channel and gain at posting (R56). -/
def jobFor (s : State) (e : ListEntry) : ScanJob where
  slot := e.slot
  gen := e.gen
  channel := (s.slot e.slot).cfg.channel
  gain := (s.slot e.slot).cfg.gain

/-- A RUNNING class that holds no job posts one for the entry at its cursor, or completes its pass where the cursor has
reached the list's length (R56, R59). -/
def continuePass (s : State) (c : ClassNo) : State :=
  if (s.cls c).state = .running ∧ (s.cls c).job = none then
    match (s.cls c).list[(s.cls c).cursor]? with
    | some e => s.setCls c { s.cls c with job := some { job := s.jobFor e, phase := .posted } }
    | none => s.setCls c { s.cls c with state := .waiting }
  else s

/-- A trigger event of a class, with the outcome it had; a STOPPED class ignores it with none (R54, R55). -/
def trigger (s : State) (c : ClassNo) : State × Option TriggerOutcome :=
  match (s.cls c).state with
  | .waiting =>
    ((s.setCls c { s.cls c with
        state := .running, cursor := 0, passSeq := (s.cls c).passSeq + 1 }).continuePass c, some .started)
  | .running => (s.setCls c { s.cls c with overruns := min 255 ((s.cls c).overruns + 1) }, some .overrun)
  | .stopping => (s, some .ignored)
  | .stopped => (s, none)

/-- A class reaches STOPPED (R66). -/
def reachStopped (s : State) (c : ClassNo) : State :=
  (s.stopTimers (s.cls c).list).setCls c { s.cls c with
    state := .stopped, periodTimer := none, cursor := 0, removedMark := false, job := none }

/-- An entry goes into a class's list at an index, and the cursor keeps its entry (R48, R60). -/
def insertEntry (s : State) (c : ClassNo) (k : Nat) (e : ListEntry) : State :=
  s.setCls c { s.cls c with
    list := (s.cls c).list.insertIdx k e
    cursor := if k ≤ (s.cls c).cursor then (s.cls c).cursor + 1 else (s.cls c).cursor }

/-- The entry at an index leaves a class's list; the cursor, the job and the removed mark are settled by where it stood
(R61, R62, R63). -/
def removeEntry (s : State) (c : ClassNo) (k : Nat) : State :=
  if k < (s.cls c).cursor then
    s.setCls c { s.cls c with list := (s.cls c).list.eraseIdx k, cursor := (s.cls c).cursor - 1 }
  else if (s.cls c).cursor < k then
    s.setCls c { s.cls c with list := (s.cls c).list.eraseIdx k }
  else
    match (s.cls c).job with
    | none => s.setCls c { s.cls c with list := (s.cls c).list.eraseIdx k }
    | some j =>
      match j.phase with
      | .posted =>
        (s.setCls c { s.cls c with list := (s.cls c).list.eraseIdx k, job := none }).continuePass c
      | .converting =>
        s.setCls c { s.cls c with list := (s.cls c).list.eraseIdx k, removedMark := true }

/-- The class's own part of the completion of its job: the job ends, the cursor moves unless the removed mark keeps it,
and the class stops, posts its next job or completes its pass (R58). -/
def finishJob (s : State) (c : ClassNo) : State :=
  let s := s.setCls c { s.cls c with
    job := none
    removedMark := false
    cursor := if (s.cls c).removedMark then (s.cls c).cursor else (s.cls c).cursor + 1 }
  if (s.cls c).state = .stopping then s.reachStopped c else s.continuePass c

end State

end Sys2Proof.Machine
end

