-- ==== Sys2Proof/Machine/Formats.lean ====
section
/-! DEFINITION. The byte layouts of what a controller reads back: the enumerations of R189, the records of R188 and the
response frame of R185 and R186. -/

namespace Sys2Proof.Machine

/-- A number sent in one byte. -/
def byte (n : Nat) : Byte := BitVec.ofNat 8 n

/-- Yes or no (R189). -/
def yesNoByte (b : Bool) : Byte := if b then 1 else 0

/-- R189. -/
def Gain.code : Gain → Byte
  | .g1 => 0
  | .g4 => 1
  | .g16 => 2
  | .g64 => 3

/-- R189. -/
def Condition.code : Condition → Byte
  | .normal => 0
  | .lo => 1
  | .lolo => 2
  | .hi => 3
  | .hihi => 4

/-- R189. -/
def Quality.code : Quality → Byte
  | .unsampled => 0
  | .good => 1
  | .clipped => 2
  | .stale => 3

/-- R189. -/
def Policy.code : Policy → Byte
  | .latched => 0
  | .follow => 1

/-- R189. -/
def Route.code : Route → Byte
  | .h => 0
  | .l => 1
  | .either => 2

/-- A port in a field that may be empty (R189). -/
def portCode : Option Port → Byte
  | none => 0
  | some .H => 1
  | some .L => 2

/-- R189. -/
def Session.code : Session → Byte
  | .detached => 0
  | .attached => 1

/-- R189. -/
def TriggerSource.code : TriggerSource → Byte
  | .periodic => 0
  | .ext0 => 1
  | .ext1 => 2
  | .onRequest => 3

/-- R189. -/
def ClassState.code : ClassState → Byte
  | .stopped => 0
  | .waiting => 1
  | .running => 2
  | .stopping => 3

/-- R189. -/
def JobPhase.code : JobPhase → Byte
  | .posted => 1
  | .converting => 2

/-- R189. -/
def TriggerOutcome.code : TriggerOutcome → Byte
  | .started => 0
  | .overrun => 1
  | .ignored => 2

/-- R189. -/
def Cause.code : Cause → Byte
  | .entered => 0
  | .cleared => 1
  | .stale => 2
  | .clipped => 3
  | .actionSpent => 4
  | .actionBlocked => 5

/-- A slot's notice state (R189). -/
def noticeStateCode : Option Notice → Byte
  | none => 0
  | some n =>
    match n.state with
    | .pending => 1
    | .delivered .H => 2
    | .delivered .L => 3

/-- R189. -/
def ActionState.code : ActionState → Byte
  | .free => 0
  | .armed => 1
  | .spent => 2

/-- R189. -/
def TriggerSet.code (t : TriggerSet) : Byte :=
  byte ((if t.lo then 1 else 0) + (if t.lolo then 2 else 0) + (if t.hi then 4 else 0) + (if t.hihi then 8 else 0))

/-- R189. -/
def ActionRec.flagsCode (a : ActionRec) : Byte :=
  byte ((if a.suppress then 1 else 0) + (if a.notifySpent then 2 else 0) + (if a.restore then 4 else 0))

/-- The three bytes of a last writer (R188). -/
def LastWriter.bytes : LastWriter → List Byte
  | .reset => [0, 0, 0]
  | .port .H => [1, 0, 0]
  | .port .L => [2, 0, 0]
  | .action a i => [3, byte a.val, byte i.val]
  | .restore => [4, 0, 0]
  | .fallback => [5, 0, 0]

/-- The result codes of R186. -/
def ResultCode.code : ResultCode → Byte
  | .ok => 0x00
  | .none => 0x01
  | .busy => 0x02
  | .tagInUse => 0x03
  | .notAttached => 0x04
  | .alreadyAttached => 0x05
  | .badRequest => 0x06
  | .badArgument => 0x07
  | .staleRef => 0x08
  | .notFound => 0x09
  | .keyInUse => 0x0A
  | .tableFull => 0x0B
  | .claimed => 0x0C
  | .noClaim => 0x0D
  | .invalidLimits => 0x0E
  | .alreadyListed => 0x0F
  | .notListed => 0x10
  | .listFull => 0x11
  | .classActive => 0x12
  | .classStopped => 0x13
  | .linked => 0x14
  | .notLinked => 0x15
  | .actionNotArmed => 0x16
  | .inUse => 0x17
  | .noFreeAction => 0x18
  | .pinned => 0x19
  | .notPinned => 0x1A
  | .notDelivered => 0x1B
  | .cancelled => 0x1C
  | .notOutstanding => 0x1D

/-- A four-byte field that is sent as 0 when it is absent (R185). -/
def optWord32 (w : Option Word32) : List Byte := bytes32 (w.getD 0)

/-- A level in two bytes (R187). -/
def levelBytes (v : Level) : List Byte := bytes16 (v.setWidth 16)

/-- A raw reading in two bytes (R187). -/
def rawBytes (r : RawReading) : List Byte := bytes16 (r.setWidth 16)

/-- The flags byte of a configuration block (R188). -/
def configFlags (c : PointConfig) : Byte :=
  byte ((if c.scale.isSome then 1 else 0) + (if c.lolo.isSome then 2 else 0) + (if c.lo.isSome then 4 else 0) +
    (if c.hi.isSome then 8 else 0) + (if c.hihi.isSome then 16 else 0) +
    (if c.staleInterval.isSome then 32 else 0) + (if c.notifyClear then 64 else 0) +
    (if c.notifyQuality then 128 else 0))

/-- Bytes 4–38 of a configuration block, which are also the staged copy of an EDIT.OPEN answer (R188). -/
def configBytes (c : PointConfig) : List Byte :=
  [byte c.channel.val, c.gain.code, configFlags c] ++
    optWord32 (c.scale.map Scale.offset) ++ optWord32 (c.scale.map Scale.span) ++
    optWord32 c.lolo ++ optWord32 c.lo ++ optWord32 c.hi ++ optWord32 c.hihi ++
    bytes16 c.deadband ++ [byte c.confirm] ++ bytes16 (BitVec.ofNat 16 (c.staleInterval.getD 0)) ++
    [byte c.severity.val, c.policy.code, c.route.code]

namespace State

/-- The two stale timer bytes of a point record: 0 when stopped, the remaining milliseconds when running (R188). -/
def staleTimerBytes (s : State) (i : SlotNo) : List Byte :=
  match (s.slot i).staleTimer with
  | none => bytes16 0
  | some due => bytes16 (BitVec.ofNat 16 (s.remainingMs due))

/-- The list class and list index bytes of a point record (R188). -/
def membershipBytes (s : State) (i : SlotNo) : List Byte :=
  match s.membership i with
  | none => [0xFF, 0]
  | some (c, k) => [byte c.val, byte k]

/-- Whether the slot's notice is DELIVERED with a follow-on (R14, R188). -/
def followOnByte (s : State) (i : SlotNo) : Byte :=
  match s.notice i with
  | none => 0
  | some n => yesNoByte n.followOn.isSome

/-- The 61 bytes of a POINT.READ answer (R14, R188). -/
def pointBytes (s : State) (i : SlotNo) : List Byte :=
  [byte i.val, (s.slot i).gen] ++ bytes32 (s.slot i).key ++ configBytes (s.slot i).cfg ++
    [match (s.slot i).link with
      | none => 0xFF
      | some a => byte a.val] ++
    rawBytes (s.slot i).raw ++ bytes32 (s.slot i).value ++
    [(s.slot i).quality.code, (s.slot i).condition.code,
      match (s.slot i).pendingCandidate with
      | none => 0xFF
      | some c => c.code,
      byte (s.slot i).pendingCount] ++
    bytes16 (s.slot i).sampleSeq ++ s.staleTimerBytes i ++
    [portCode ((s.slot i).claim.map Claim.owner)] ++ s.membershipBytes i ++
    [noticeStateCode (s.notice i), s.followOnByte i]

/-- The eight bytes of an OK answer to POINT.SAMPLE (R81, R187). -/
def sampleBytes (s : State) (i : SlotNo) : List Byte :=
  rawBytes (s.slot i).raw ++ bytes32 (s.slot i).value ++ [(s.slot i).quality.code, (s.slot i).condition.code]

/-- The DEFINED points from a start slot upward, in increasing slot order (R16). -/
def definedFrom (s : State) (start : SlotNo) : List SlotNo :=
  allSlots.filter fun i => start ≤ i && (s.slot i).state == .defined

/-- The data of a TABLE.SUMMARY answer: the count, up to 28 pairs and the continuation (R16, R187). -/
def summaryBytes (s : State) (start : SlotNo) : List Byte :=
  [byte s.definedCount, byte ((s.definedFrom start).take 28).length] ++
    ((s.definedFrom start).take 28).flatMap (fun i => [byte i.val, (s.slot i).gen]) ++
    [match (s.definedFrom start).drop 28, ((s.definedFrom start).take 28).getLast? with
      | _ :: _, some last => byte (last.val + 1)
      | _, _ => 0xFF]

end State

/-- The ten bytes of a notice (R123, R188). -/
def noticeBytes (i : SlotNo) (n : Notice) : List Byte :=
  [byte i.val, n.gen, n.cause.code, n.condition.code, byte n.severity.val] ++ bytes32 n.seq ++ [byte n.count]

/-- The job state, job slot and job generation bytes of a CLASS.STATUS answer (R188). -/
def currentJobBytes : Option CurrentJob → List Byte
  | none => [0, 0, 0]
  | some j => [j.phase.code, byte j.job.slot.val, j.job.gen]

/-- The thirteen bytes of a CLASS.STATUS answer (R68, R188). -/
def classBytes (k : ScanClass) : List Byte :=
  [k.source.code] ++ bytes16 k.period ++ [k.state.code, byte k.list.length, byte k.cursor] ++
    currentJobBytes k.job ++ [yesNoByte k.removedMark] ++ bytes16 k.passSeq ++ [byte k.overruns]

/-- The data of a LIST.READ answer (R67, R187). -/
def listBytes (k : ScanClass) : List Byte :=
  [byte k.list.length] ++ k.list.flatMap fun e => [byte e.slot.val, e.gen]

/-- The eight bytes of an ACTION.READ answer (R142, R187). -/
def actionBytes (a : ActionRec) : List Byte :=
  [a.state.code, a.triggers.code, byte a.output.val] ++ levelBytes a.drive ++
    [byte a.budget, a.flagsCode, byte a.linkCount]

/-- The five bytes of an OK answer to OUTPUT.PIN (R155, R187). -/
def pinBytes (o : OutputChannel) : List Byte := levelBytes o.value ++ o.lastWriter.bytes

/-- The twelve bytes of an OUTPUT.READ answer (R159, R187). -/
def outputBytes (o : OutputChannel) : List Byte :=
  levelBytes o.value ++ o.lastWriter.bytes ++ [yesNoByte o.saved.isSome] ++ levelBytes (o.saved.getD 0) ++
    [portCode o.pin, yesNoByte o.fallback.isSome] ++ levelBytes (o.fallback.getD 0)

/-- The eight bytes of a PORT.STATUS answer (R176, R187). -/
def portBytes (r : PortRec) : List Byte :=
  [r.session.code, byte r.timeoutSteps, byte r.threshold.val, byte r.openTags.length, byte r.queue.length,
    byte r.refusals.length, byte r.frameErrors, byte r.dropped]

/-- The status byte: the refusal mark and the result code (R186). -/
def statusByte (refusal : Bool) (c : ResultCode) : Byte := if refusal then 0x80 ||| c.code else c.code

/-- The response frame of an answer: the length first, the check byte last (R185, R186). -/
def responseFrame (refusal : Bool) (a : Answer) : List Byte :=
  let body := byte (a.data.length + 5) :: byte a.tag.val :: a.kind :: statusByte refusal a.code :: a.data
  body ++ [0 - byteSum body]

end Sys2Proof.Machine
end

