-- ==== Sys2Proof/Machine/NoticeOps.lean ====
section
/-! DEFINITION. The shared operations of the notice unit: raising, withdrawing, choosing, delivering and returning
notices, and serving the waiting NOTICE.WAIT requests (R112 to R132). -/

namespace Sys2Proof.Machine

/-- A new notice of a raise, with the raise sequence it takes (R112). -/
def Notice.fresh (g : Generation) (cause : Cause) (cond : Condition) (sev : Severity) (seq : Word32) : Notice where
  gen := g
  cause := cause
  condition := cond
  severity := sev
  seq := seq
  count := 1
  state := .pending
  followOn := none

/-- A raise folded into a PENDING notice (R113). -/
def Notice.fold (n : Notice) (cause : Cause) (cond : Condition) (sev : Severity) : Notice :=
  { n with cause := cause, condition := cond, severity := max n.severity sev, count := min 255 (n.count + 1) }

/-- A raise held with a DELIVERED notice (R114). -/
def Notice.hold (n : Notice) (cause : Cause) (cond : Condition) (sev : Severity) : Notice :=
  match n.followOn with
  | none => { n with followOn := some { cause := cause, condition := cond, severity := sev } }
  | some f => { n with followOn := some { cause := cause, condition := cond, severity := max f.severity sev } }

/-- A notice DELIVERED to a port whose session ends, back to PENDING with its follow-on folded in; any other notice as
it was (R131). -/
def Notice.returnFrom (p : Port) (n : Notice) : Notice :=
  if n.state = .delivered p then
    match n.followOn with
    | none => { n with state := .pending }
    | some f => { n.fold f.cause f.condition f.severity with state := .pending, followOn := none }
  else n

/-- A notice is chosen before another: the higher severity, then the lower raise sequence (R122). -/
def Notice.before (a b : Notice) : Bool :=
  decide (b.severity < a.severity) || (a.severity == b.severity && decide (a.seq.toNat < b.seq.toNat))

namespace State

/-- A raise for the point of a slot, at the point's generation and severity (R99, R112, R113, R114). -/
def raise (s : State) (i : SlotNo) (cause : Cause) (cond : Condition) : State :=
  match s.notice i with
  | none =>
    s.countRaise.setNotice i (some (Notice.fresh (s.slot i).gen cause cond (s.slot i).cfg.severity (s.raiseSeq + 1)))
  | some n =>
    match n.state with
    | .pending => s.setNotice i (some (n.fold cause cond (s.slot i).cfg.severity))
    | .delivered _ => s.setNotice i (some (n.hold cause cond (s.slot i).cfg.severity))

/-- The FOLLOW withdrawal, with whether a notice was removed or a follow-on discarded (R116). -/
def followWithdraw (s : State) (i : SlotNo) : State × Bool :=
  match s.notice i with
  | none => (s, false)
  | some n =>
    match n.state with
    | .pending => if n.cause = .entered then (s.setNotice i none, true) else (s, false)
    | .delivered _ =>
      match n.followOn with
      | none => (s, false)
      | some f => if f.cause = .entered then (s.setNotice i (some { n with followOn := none }), true) else (s, false)

/-- The STALE withdrawal (R117). -/
def staleWithdraw (s : State) (i : SlotNo) : State :=
  match s.notice i with
  | none => s
  | some n => if n.state = .pending ∧ n.cause = .stale then s.setNotice i none else s

/-- The notice NOTICE.FETCH chooses among those of a list of slots: the highest severity, then the lowest raise sequence,
then the lowest slot (R122). DESIGN CHOICE: log entry 6. -/
def bestAmong (s : State) (p : Port) : List SlotNo → Option (SlotNo × Notice)
  | [] => none
  | i :: rest =>
    match s.deliverable p i, s.bestAmong p rest with
    | none, r => r
    | some n, none => some (i, n)
    | some n, some (j, m) => if m.before n then some (j, m) else some (i, n)

/-- The notice NOTICE.FETCH chooses for a port (R122). -/
def best (s : State) (p : Port) : Option (SlotNo × Notice) := s.bestAmong p allSlots

/-- Delivery of the chosen notice to a port, with the notice's bytes; none where no notice is deliverable (R122, R123). -/
def fetch (s : State) (p : Port) : Option (State × List Byte) :=
  (s.best p).map fun x => (s.setNotice x.1 (some { x.2 with state := .delivered p }), noticeBytes x.1 x.2)

/-- Removes a port's waiting NOTICE.WAIT from the list (R127, R128, R132). -/
def dropWait (s : State) (p : Port) : State := s.setWaits (s.waits.filter fun w => w.port != p)

/-- Serves one waiting NOTICE.WAIT, where a notice is deliverable to its port (R125). -/
def serveWait (s : State) (w : WaitRec) : State :=
  match s.fetch w.port with
  | none => s
  | some (s', data) => (s'.dropWait w.port).answerTag w.port w.tag .ok data

/-- Serves the waiting NOTICE.WAIT requests in the order of their acceptance (R125, R126). DEDUCED: log entry
19. -/
def serveWaits (s : State) : State := s.waits.foldl serveWait s

end State

end Sys2Proof.Machine
end

