-- ==== Sys2Proof/Machine/SessionOps.lean ====
section
/-! DEFINITION. The end of a port's session, one event over the port and every block that holds something of the session
(R43, R85, R131, R132, R160, R181). -/

namespace Sys2Proof.Machine

/-- A point record without a claim of the port (R43). -/
def PointSlot.withoutClaim (p : Port) (r : PointSlot) : PointSlot :=
  if r.claim.map Claim.owner = some p then { r with claim := none } else r

/-- A channel with the port's pin released and a present fallback applied; any other channel as it was (R160). -/
def OutputChannel.releasePin (p : Port) (o : OutputChannel) : OutputChannel :=
  if o.pin = some p then
    match o.fallback with
    | none => { o with pin := none }
    | some v => { o with pin := none, value := v, lastWriter := .fallback, saved := none }
  else o

/-- A held job with the port's direct job set to DISCARD; any other job as it was (R84, R85). -/
def HeldJob.discardFor (who : DirectJob → Bool) : HeldJob → HeldJob
  | .scan c j => .scan c j
  | .direct j ch g => if who j then .direct { j with disposition := .discard } ch g else .direct j ch g

/-- The converter with the jobs a condition picks set to DISCARD; it goes on to its completion (R71). -/
def Converter.discardFor (who : DirectJob → Bool) : Converter → Converter
  | .idle => .idle
  | .settling j due => .settling (j.discardFor who) due
  | .sampling j due => .sampling (j.discardFor who) due

namespace State

/-- The port's queued direct jobs are removed and its converting one is set to DISCARD (R85). -/
def dropJobs (s : State) (p : Port) : State :=
  s.setFrontEnd { s.frontEnd with
    queue := s.frontEnd.queue.filter fun j => j.port != p
    converter := s.frontEnd.converter.discardFor fun j => j.port == p }

/-- The port's record without its session and its traffic; the counts, the claim timeout and the threshold as they
were (R181). -/
def clearTraffic (s : State) (p : Port) : State :=
  s.setPort p { s.port p with session := .detached, openTags := [], queue := [], refusals := [] }

/-- The session end of a port in every block, and the other port's wait served from the notices it returns (R181). -/
def endSession (s : State) (p : Port) : State :=
  ((((((s.clearTraffic p).dropJobs p).dropWait p).mapNotices (Notice.returnFrom p)).mapSlots
    (PointSlot.withoutClaim p)).mapOutputs (OutputChannel.releasePin p)).serveWaits

end State

end Sys2Proof.Machine
end

