-- ==== Sys2Proof/Machine/Resets.lean ====
section
/-! DEFINITION. Power-up, device reset and the port resets (R182, R183, R190, R191). -/

namespace Sys2Proof.Machine

/-- What stands of a state when the whole part takes its reset values: the waiting commands and the model's own clock and
counter, and the levels of the three reset lines (R183, R190). -/
def State.afterReset (s : State) (rst hPrst lPrst : Bool) : State :=
  { State.reset with
    pending := s.pending
    now := s.now
    freeIndex := s.freeIndex
    rstAsserted := rst
    portH := { PortRec.reset with prstAsserted := hPrst }
    portL := { PortRec.reset with prstAsserted := lPrst } }

/-- POWER_UP (R190). -/
def execPowerUp (rst hPrst lPrst : Bool) (s : State) : Host.Outcome State Fault Refusal :=
  .next (s.afterReset rst hPrst lPrst)

/-- DEVICE_RESET: RSTn does not move the PRSTn lines (R183). -/
def execDeviceReset (s : State) : Host.Outcome State Fault Refusal :=
  .next (s.afterReset true s.portH.prstAsserted s.portL.prstAsserted)

/-- RSTN_RELEASE (R191). -/
def execRstnRelease (hSelect lSelect : Bool) (s : State) : Host.Outcome State Fault Refusal :=
  if s.rstAsserted = true then
    .next { s with
      rstAsserted := false
      portH := { s.portH with selectIgnored := hSelect }
      portL := { s.portL with selectIgnored := lSelect } }
  else .next s

/-- What PRSTn clears in its port's record beside the session (R181, R182). -/
def State.portReset (s : State) (p : Port) : State :=
  s.setPort p { s.port p with
    session := .detached, openTags := [], queue := [], refusals := [], frameErrors := 0, dropped := 0
    collecting := none }

/-- PRSTN_ASSERT: the session ends, or a DETACHED port's traffic is cleared; the assertion is taken once, and while RSTn
is asserted the port is held at its reset values already (R182, R191). DEDUCED: log entry 14. -/
def execPrstnAssert (p : Port) (s : State) : Host.Outcome State Fault Refusal :=
  if (s.port p).prstAsserted = true then .next s
  else
    let held := s.setPort p { s.port p with prstAsserted := true, selectIgnored := false }
    if s.rstAsserted = true then .next held
    else if s.attached p then .next ((held.endSession p).portReset p).updateAttention
    else .next (held.portReset p).updateAttention

/-- PRSTN_RELEASE; while RSTn is asserted the port stays as that line holds it (R182, R191). -/
def execPrstnRelease (p : Port) (select : Bool) (s : State) : Host.Outcome State Fault Refusal :=
  if (s.port p).prstAsserted = true then
    .next (s.setPort p { s.port p with
      prstAsserted := false, selectIgnored := select && !s.rstAsserted })
  else .next s

end Sys2Proof.Machine
end

