-- ==== Sys2Proof/Machine/ActionOps.lean ====
section
/-! DEFINITION. The shared operations of the action unit: an invocation, the spending of an action and a restore offer
(R143 to R148). -/

namespace Sys2Proof.Machine

/-- What an invocation reports to the evaluator (R100). -/
inductive InvokeOutcome where
  | notSuppressed | suppressed | blocked
deriving DecidableEq, Repr

/-- The channel after a drive by an action for a slot's point: the saved value is settled, then the value and the last
writer are written (R144). -/
def OutputChannel.driven (o : OutputChannel) (a : ActionNo) (r : ActionRec) (i : SlotNo) : OutputChannel :=
  { o with
    value := r.drive
    lastWriter := .action a i
    saved :=
      if r.restore then
        if o.saved.isSome && o.lastWriter.isAction a then o.saved else some o.value
      else none }

namespace State

/-- Clears every link that names an action (R146). -/
def clearLinks (s : State) (a : ActionNo) : State :=
  s.mapSlots fun r => if r.link = some a then { r with link := none } else r

/-- The budget after a drive; at 0 the action is SPENT and loses its links (R145, R146). -/
def useBudget (s : State) (a : ActionNo) : State :=
  if (s.action a).budget ≤ 1 then
    (s.clearLinks a).setAction a { s.action a with state := .spent, budget := 0, linkCount := 0 }
  else s.setAction a { s.action a with budget := (s.action a).budget - 1 }

/-- An invocation for a slot's point: the outcome, and the cause of the action unit's own raise if it makes one
(R143 to R147). -/
def invoke (s : State) (a : ActionNo) (i : SlotNo) : State × InvokeOutcome × Option Cause :=
  if (s.output (s.action a).output).pin.isSome then (s, .blocked, some .actionBlocked)
  else
    ((s.setOutput (s.action a).output ((s.output (s.action a).output).driven a (s.action a) i)).useBudget a,
      if (s.action a).suppress then .suppressed else .notSuppressed,
      if (s.action a).budget ≤ 1 ∧ (s.action a).notifySpent = true then some .actionSpent else none)

/-- A restore offer to an action for a slot's point (R148). -/
def offerRestore (s : State) (a : ActionNo) (i : SlotNo) : State :=
  let o := s.output (s.action a).output
  match o.saved with
  | none => s
  | some v =>
    if o.lastWriter.isDrive a i then
      if o.pin.isSome then s.setOutput (s.action a).output { o with saved := none }
      else s.setOutput (s.action a).output { o with value := v, lastWriter := .restore, saved := none }
    else s

/-- Takes a point's link back from its action's link count (R21, R138). -/
def unlink (s : State) (a : ActionNo) : State :=
  s.setAction a { s.action a with linkCount := (s.action a).linkCount - 1 }

end State

end Sys2Proof.Machine
end

