-- ==== Sys2Proof/Machine/Points.lean ====
section
/-! DEFINITION. The requests of the point table: POINT.DEFINE, POINT.FIND, POINT.READ, TABLE.SUMMARY and POINT.RETIRE
(R10 to R24). -/

namespace Sys2Proof.Machine

/-- A DEFINED record with a key and a configuration, every other field at its starting value (R7, R8, R11). -/
def PointSlot.fresh (g : Generation) (key : Word32) (cfg : PointConfig) : PointSlot :=
  { PointSlot.freed g with state := .defined, key := key, cfg := cfg }

namespace State

/-- POINT.DEFINE, tested in the order of R10 and carried out as R11 states. -/
def ownDefine (b : ConfigBlock) (s : State) : State × Reply :=
  match configOf b with
  | none => s.reply .badArgument
  | some cfg =>
    if b.key = 0 then s.reply .badArgument
    else if limitCheck cfg = false then s.reply .invalidLimits
    else if (s.keySlot b.key).isSome then s.reply .keyInUse
    else
      match s.lowestFree with
      | none => s.reply .tableFull
      | some i =>
        ((s.setSlot i (PointSlot.fresh ((s.slot i).gen + 1) b.key cfg)).setKeyMap
            ({ key := b.key, slot := i } :: s.keyMap),
          .done .ok [byte i.val, (s.slot i).gen + 1])

/-- POINT.FIND (R13). -/
def ownFind (key : Word32) (s : State) : State × Reply :=
  if key = 0 then s.reply .badArgument
  else
    match s.keySlot key with
    | none => s.reply .notFound
    | some i => s.reply .ok [byte i.val, (s.slot i).gen]

/-- POINT.READ (R14). -/
def ownRead (slot gen : Byte) (s : State) : State × Reply :=
  s.withRef slot gen fun i => s.reply .ok (s.pointBytes i)

/-- TABLE.SUMMARY (R16). -/
def ownSummary (start : Byte) (s : State) : State × Reply :=
  match slotOf start with
  | none => s.reply .badArgument
  | some i => s.reply .ok (s.summaryBytes i)

/-- The retired point's entry leaves its scan list, if it has one (R19). -/
def retireEntry (s : State) (i : SlotNo) : State :=
  match s.membership i with
  | none => s
  | some (c, k) => s.removeEntry c k

/-- The retired point's link is taken back and its saved output values dropped, if it is linked (R21). -/
def retireLink (s : State) (i : SlotNo) : State :=
  match (s.slot i).link with
  | none => s
  | some a => (s.unlink a).dropSaved (LastWriter.isDrive a i)

/-- The retire of a slot's point in every block (R18 to R22). -/
def retire (s : State) (i : SlotNo) : State :=
  let s := ((s.retireEntry i).setNotice i none).retireLink i
  (s.setSlot i (PointSlot.freed (s.slot i).gen)).setKeyMap (s.keyMap.filter fun e => e.slot != i)

/-- The point's claim is held by the other port (R17, R41). -/
def claimedByOther (s : State) (p : Port) (i : SlotNo) : Bool :=
  (s.slot i).claim.map Claim.owner == some p.other

/-- POINT.RETIRE (R17). -/
def ownRetire (p : Port) (slot gen : Byte) (s : State) : State × Reply :=
  s.withRef slot gen fun i =>
    if s.claimedByOther p i then s.reply .claimed
    else (s.retire i, .done .ok [byte i.val, (s.slot i).gen])

end State

/-- POINT_DEFINE (R10, R11). -/
def execPointDefine (p : Port) (t : Tag) (b : ConfigBlock) (s : State) : Host.Outcome State Fault Refusal :=
  .next (s.request p t .pointDefine (State.ownDefine b))

/-- POINT_FIND (R13). -/
def execPointFind (p : Port) (t : Tag) (key : Word32) (s : State) : Host.Outcome State Fault Refusal :=
  .next (s.request p t .pointFind (State.ownFind key))

/-- POINT_READ (R14). -/
def execPointRead (p : Port) (t : Tag) (slot gen : Byte) (s : State) : Host.Outcome State Fault Refusal :=
  .next (s.request p t .pointRead (State.ownRead slot gen))

/-- TABLE_SUMMARY (R16). -/
def execTableSummary (p : Port) (t : Tag) (start : Byte) (s : State) : Host.Outcome State Fault Refusal :=
  .next (s.request p t .tableSummary (State.ownSummary start))

/-- POINT_RETIRE (R17 to R22). -/
def execPointRetire (p : Port) (t : Tag) (slot gen : Byte) (s : State) : Host.Outcome State Fault Refusal :=
  .next (s.request p t .pointRetire (State.ownRetire p slot gen))

end Sys2Proof.Machine
end

