-- ==== Sys2Proof/Machine/Actions.lean ====
section
/-! DEFINITION. The requests on action records (R134 to R142). -/

namespace Sys2Proof.Machine

namespace State

/-- ACTION.CREATE (R136). -/
def ownCreate (triggers output : Byte) (drive : Word16) (budget flags : Byte) (s : State) : State × Reply :=
  match triggersOf triggers, outputOf output, levelOf drive, budgetOf budget, actionFlagsOf flags with
  | some ts, some o, some d, some n, some (suppress, notifySpent, restore) =>
    match s.lowestFreeAction with
    | none => s.reply .noFreeAction
    | some a =>
      (s.setAction a {
          state := .armed, triggers := ts, output := o, drive := d, budget := n
          suppress := suppress, notifySpent := notifySpent, restore := restore, linkCount := 0 },
        .done .ok [byte a.val])
  | _, _, _, _, _ => s.reply .badArgument

/-- ACTION.LINK, tested in the order of R137. -/
def ownLink (p : Port) (action slot gen : Byte) (s : State) : State × Reply :=
  match actionOf action with
  | none => s.reply .badArgument
  | some a =>
    s.withRef slot gen fun i =>
      if s.claimedByOther p i then s.reply .claimed
      else if (s.action a).state ≠ .armed then s.reply .actionNotArmed
      else if (s.slot i).link.isSome then s.reply .linked
      else
        ((s.setSlot i { s.slot i with link := some a }).setAction a
            { s.action a with linkCount := (s.action a).linkCount + 1 },
          .done .ok [byte a.val, byte ((s.action a).linkCount + 1)])

/-- ACTION.UNLINK, tested in the order of R138. -/
def ownUnlink (p : Port) (slot gen : Byte) (s : State) : State × Reply :=
  s.withRef slot gen fun i =>
    if s.claimedByOther p i then s.reply .claimed
    else
      match (s.slot i).link with
      | none => s.reply .notLinked
      | some a =>
        (((s.setSlot i { s.slot i with link := none }).unlink a).dropSaved (LastWriter.isDrive a i),
          .done .ok [byte a.val, byte ((s.action a).linkCount - 1)])

/-- ACTION.REARM (R140). -/
def ownRearm (action budget : Byte) (s : State) : State × Reply :=
  match actionOf action, budgetOf budget with
  | some a, some n =>
    if (s.action a).state = .free then s.reply .actionNotArmed
    else
      ((s.setAction a { s.action a with state := .armed, budget := n }).dropSaved (LastWriter.isAction a),
        .done .ok [])
  | _, _ => s.reply .badArgument

/-- ACTION.FREE (R141). -/
def ownFree (action : Byte) (s : State) : State × Reply :=
  match actionOf action with
  | none => s.reply .badArgument
  | some a =>
    if (s.action a).state = .free then s.reply .ok
    else if (s.action a).state = .armed ∧ 0 < (s.action a).linkCount then s.reply .inUse
    else ((s.dropSaved (LastWriter.isAction a)).setAction a ActionRec.reset, .done .ok [])

/-- ACTION.READ (R142). -/
def ownActionRead (action : Byte) (s : State) : State × Reply :=
  match actionOf action with
  | none => s.reply .badArgument
  | some a => s.reply .ok (actionBytes (s.action a))

end State

/-- ACTION_CREATE (R136). -/
def execActionCreate (p : Port) (t : Tag) (triggers output : Byte) (drive : Word16) (budget flags : Byte) (s : State) :
    Host.Outcome State Fault Refusal :=
  .next (s.request p t .actionCreate (State.ownCreate triggers output drive budget flags))

/-- ACTION_LINK (R137). -/
def execActionLink (p : Port) (t : Tag) (action slot gen : Byte) (s : State) : Host.Outcome State Fault Refusal :=
  .next (s.request p t .actionLink (State.ownLink p action slot gen))

/-- ACTION_UNLINK (R138). -/
def execActionUnlink (p : Port) (t : Tag) (slot gen : Byte) (s : State) : Host.Outcome State Fault Refusal :=
  .next (s.request p t .actionUnlink (State.ownUnlink p slot gen))

/-- ACTION_REARM (R140). -/
def execActionRearm (p : Port) (t : Tag) (action budget : Byte) (s : State) : Host.Outcome State Fault Refusal :=
  .next (s.request p t .actionRearm (State.ownRearm action budget))

/-- ACTION_FREE (R141). -/
def execActionFree (p : Port) (t : Tag) (action : Byte) (s : State) : Host.Outcome State Fault Refusal :=
  .next (s.request p t .actionFree (State.ownFree action))

/-- ACTION_READ (R142). -/
def execActionRead (p : Port) (t : Tag) (action : Byte) (s : State) : Host.Outcome State Fault Refusal :=
  .next (s.request p t .actionRead (State.ownActionRead action))

end Sys2Proof.Machine
end

