-- ==== Sys2Proof/Machine/Classes.lean ====
section
/-! DEFINITION. The scan classes: the CLASS and LIST requests, the period timers and the external triggers (R45 to
R69). -/

namespace Sys2Proof.Machine

namespace State

/-- Microseconds in a class's period (R52). -/
def periodTime (s : State) (c : ClassNo) : Nat := (s.cls c).period.toNat * Config.scanUnit

/-- CLASS.CONFIG (R46). -/
def ownConfig (cls source : Byte) (period : Word16) (s : State) : State × Reply :=
  match classOf cls, sourceOf source with
  | some c, some src =>
    if period = 0 then s.reply .badArgument
    else if (s.cls c).state ≠ .stopped then s.reply .classActive
    else (s.setCls c { s.cls c with source := src, period := period }, .done .ok [])
  | _, _ => s.reply .badArgument

/-- CLASS.START (R51). -/
def ownStart (cls : Byte) (s : State) : State × Reply :=
  match classOf cls with
  | none => s.reply .badArgument
  | some c =>
    if (s.cls c).state ≠ .stopped then s.reply .classActive
    else
      ((s.setCls c { s.cls c with
          state := .waiting
          overruns := 0
          periodTimer := if (s.cls c).source = .periodic then some (s.now + s.periodTime c) else none
        }).startTimers (s.cls c).list, .done .ok [])

/-- CLASS.STOP, with the state it leaves (R65). -/
def stopClass (s : State) (c : ClassNo) : State :=
  match (s.cls c).state with
  | .stopped | .stopping => s
  | .waiting => s.reachStopped c
  | .running =>
    match (s.cls c).job with
    | none => s.reachStopped c
    | some j =>
      match j.phase with
      | .posted => s.reachStopped c
      | .converting => s.setCls c { s.cls c with state := .stopping }

/-- CLASS.STOP (R65). -/
def ownStop (cls : Byte) (s : State) : State × Reply :=
  match classOf cls with
  | none => s.reply .badArgument
  | some c => (s.stopClass c, .done .ok [((s.stopClass c).cls c).state.code])

/-- CLASS.TRIGGER (R54). -/
def ownTrigger (cls : Byte) (s : State) : State × Reply :=
  match classOf cls with
  | none => s.reply .badArgument
  | some c =>
    match s.trigger c with
    | (_, none) => s.reply .classStopped
    | (s', some o) => (s', .done .ok [o.code])

/-- CLASS.STATUS (R68). -/
def ownClassStatus (cls clear : Byte) (s : State) : State × Reply :=
  match classOf cls, yesNoOf clear with
  | some c, some false => s.reply .ok (classBytes (s.cls c))
  | some c, some true => (s.setCls c { s.cls c with overruns := 0 }, .done .ok (classBytes (s.cls c)))
  | _, _ => s.reply .badArgument

/-- LIST.INSERT, tested in the order of R48. -/
def ownInsert (cls slot gen position : Byte) (s : State) : State × Reply :=
  match classOf cls with
  | none => s.reply .badArgument
  | some c =>
    if Config.listCapacity < position.toNat then s.reply .badArgument
    else
      s.withRef slot gen fun i =>
        if (s.membership i).isSome then s.reply .alreadyListed
        else if (s.cls c).list.length < position.toNat then s.reply .badArgument
        else if Config.listCapacity ≤ (s.cls c).list.length then s.reply .listFull
        else
          let s := s.insertEntry c position.toNat { slot := i, gen := gen }
          (if (s.cls c).state = .waiting ∨ (s.cls c).state = .running then s.startTimer i else s,
            .done .ok [byte c.val, position])

/-- LIST.REMOVE, tested in the order of R49. -/
def ownRemove (cls slot gen : Byte) (s : State) : State × Reply :=
  match classOf cls with
  | none => s.reply .badArgument
  | some c =>
    s.withRef slot gen fun i =>
      match (s.cls c).indexOf i gen with
      | none => s.reply .notListed
      | some k => ((s.removeEntry c k).stopTimer i, .done .ok [byte k])

/-- LIST.READ (R67). -/
def ownListRead (cls : Byte) (s : State) : State × Reply :=
  match classOf cls with
  | none => s.reply .badArgument
  | some c => s.reply .ok (listBytes (s.cls c))

end State

/-- A class's source is a trigger line (R53). -/
def TriggerSource.isLine : TriggerSource → XtLine → Bool
  | .ext0, .xt0 => true
  | .ext1, .xt1 => true
  | _, _ => false

/-- CLASS_CONFIG (R46). -/
def execClassConfig (p : Port) (t : Tag) (cls source : Byte) (period : Word16) (s : State) :
    Host.Outcome State Fault Refusal :=
  .next (s.request p t .classConfig (State.ownConfig cls source period))

/-- CLASS_START (R51). -/
def execClassStart (p : Port) (t : Tag) (cls : Byte) (s : State) : Host.Outcome State Fault Refusal :=
  .next (s.request p t .classStart (State.ownStart cls))

/-- CLASS_STOP (R65). -/
def execClassStop (p : Port) (t : Tag) (cls : Byte) (s : State) : Host.Outcome State Fault Refusal :=
  .next (s.request p t .classStop (State.ownStop cls))

/-- CLASS_TRIGGER (R54). -/
def execClassTrigger (p : Port) (t : Tag) (cls : Byte) (s : State) : Host.Outcome State Fault Refusal :=
  .next (s.request p t .classTrigger (State.ownTrigger cls))

/-- CLASS_STATUS (R68). -/
def execClassStatus (p : Port) (t : Tag) (cls clear : Byte) (s : State) : Host.Outcome State Fault Refusal :=
  .next (s.request p t .classStatus (State.ownClassStatus cls clear))

/-- LIST_INSERT (R48). -/
def execListInsert (p : Port) (t : Tag) (cls slot gen position : Byte) (s : State) :
    Host.Outcome State Fault Refusal :=
  .next (s.request p t .listInsert (State.ownInsert cls slot gen position))

/-- LIST_REMOVE (R49). -/
def execListRemove (p : Port) (t : Tag) (cls slot gen : Byte) (s : State) : Host.Outcome State Fault Refusal :=
  .next (s.request p t .listRemove (State.ownRemove cls slot gen))

/-- LIST_READ (R67). -/
def execListRead (p : Port) (t : Tag) (cls : Byte) (s : State) : Host.Outcome State Fault Refusal :=
  .next (s.request p t .listRead (State.ownListRead cls))

/-- PERIOD_EXPIRY: the timer restarts for a further period from the expiry and the class is triggered (R52). -/
def execPeriodExpiry (c : ClassNo) (s : State) : Host.Outcome State Fault Refusal :=
  .next (s.event fun s =>
    match (s.cls c).periodTimer with
    | none => s
    | some due =>
      (((s.advanceTo due).setCls c { s.cls c with periodTimer := some (due + s.periodTime c) }).trigger c).1)

/-- XT_RISING_EDGE: every class whose source is the line is triggered, the lowest first (R53). -/
def execXtRisingEdge (line : XtLine) (s : State) : Host.Outcome State Fault Refusal :=
  .next (s.event fun s =>
    allClasses.foldl (fun s c => if (s.cls c).source.isLine line then (s.trigger c).1 else s) s)

end Sys2Proof.Machine
end

