-- ==== Sys2Proof/Machine/Evaluator.lean ====
section
/-! DEFINITION. The condition evaluator: a point's value, its candidate, confirmation, a condition change and the
application of a sample (R6, R87 to R106). -/

namespace Sys2Proof.Machine

/-- Saturation to the signed 32-bit range (R6). -/
def saturate32 (x : Int) : Word32 :=
  if 2147483647 < x then BitVec.ofInt 32 2147483647
  else if x < -2147483648 then BitVec.ofInt 32 (-2147483648)
  else BitVec.ofInt 32 x

/-- A point's value from its raw reading: the product exact, the quotient rounded toward minus infinity, the sum
saturated (R6). -/
def scaleValue (scale : Option Scale) (raw : RawReading) : Word32 :=
  match scale with
  | none => raw.setWidth 32
  | some sc => saturate32 (sc.offset.toInt + ((raw.toNat : Int) * sc.span.toInt).fdiv 16384)

/-- The value is at or above a high limit that is present (R93). -/
def atOrAbove (v : Word32) : Option Word32 → Bool
  | none => false
  | some l => decide (l.toInt ≤ v.toInt)

/-- The value is at or below a low limit that is present (R93). -/
def atOrBelow (v : Word32) : Option Word32 → Bool
  | none => false
  | some l => decide (v.toInt ≤ l.toInt)

/-- The raw candidate K of a value (R93). -/
def rawCandidate (c : PointConfig) (v : Word32) : Condition :=
  if atOrAbove v c.hihi then .hihi
  else if atOrAbove v c.hi then .hi
  else if atOrBelow v c.lolo then .lolo
  else if atOrBelow v c.lo then .lo
  else .normal

/-- The deadband test against the limit of a condition, formed exactly (R95). A condition without its limit has nothing
to pass. -/
def clearsDeadband (c : PointConfig) (cond : Condition) (v : Word32) : Bool :=
  match cond, limitOf c cond with
  | .hi, some l | .hihi, some l => decide (v.toInt < l.toInt - c.deadband.toNat)
  | .lo, some l | .lolo, some l => decide (l.toInt + c.deadband.toNat < v.toInt)
  | _, _ => false

/-- A move to the more severe condition on the same side (R94). -/
def moreSevere : Condition → Condition → Bool
  | .hi, .hihi => true
  | .lo, .lolo => true
  | _, _ => false

/-- The candidate of a value for a point in a condition (R94, R96). -/
def candidate (c : PointConfig) (cond : Condition) (v : Word32) : Condition :=
  if cond = .normal ∨ moreSevere cond (rawCandidate c v) = true then rawCandidate c v
  else if clearsDeadband c cond v then rawCandidate c v
  else cond

/-- The live fields an applied sample writes before the candidate is judged (R90). -/
def PointSlot.sampled (r : PointSlot) (raw : RawReading) : PointSlot :=
  { r with
    raw := raw
    value := scaleValue r.cfg.scale raw
    quality := if clippedFlag raw then .clipped else .good
    sampleSeq := r.sampleSeq + 1 }

namespace State

/-! ## A condition change (R98 to R103) -/

/-- The invocation of a point's linked action on entry into a condition, if there is one to make (R100). -/
def invokeOnEntry (s : State) (i : SlotNo) (x : Condition) : State × InvokeOutcome × Option Cause :=
  match (s.slot i).link with
  | none => (s, .notSuppressed, none)
  | some a =>
    if (s.action a).state = .armed ∧ (s.action a).triggers.has x = true then s.invoke a i
    else (s, .notSuppressed, none)

/-- The raises of an entry into a condition, the evaluator's before the action unit's (R100, R101). -/
def entryRaises (s : State) (i : SlotNo) (x : Condition) (outcome : InvokeOutcome) (own : Option Cause) : State :=
  let s := if outcome = .suppressed then s else s.raise i .entered x
  match own with
  | none => s
  | some cause => s.raise i cause x

/-- The effects of a change to an abnormal condition (R100, R101). -/
def enterCondition (s : State) (i : SlotNo) (x : Condition) : State :=
  (s.invokeOnEntry i x).1.entryRaises i x (s.invokeOnEntry i x).2.1 (s.invokeOnEntry i x).2.2

/-- The notice work of a change to NORMAL (R102). -/
def returnNotices (s : State) (i : SlotNo) : State :=
  let r := if (s.slot i).cfg.policy = .follow then s.followWithdraw i else (s, false)
  if r.2 = true then r.1
  else if (s.slot i).cfg.notifyClear then r.1.raise i .cleared .normal
  else r.1

/-- The effects of a change to NORMAL: the notice work, then the restore offer (R102, R103). -/
def returnToNormal (s : State) (i : SlotNo) : State :=
  match (s.slot i).link with
  | none => s.returnNotices i
  | some a => (s.returnNotices i).offerRestore a i

/-- A condition change, with its effects (R98). -/
def changeCondition (s : State) (i : SlotNo) (x : Condition) : State :=
  let s := s.setSlot i { s.slot i with condition := x }
  match x with
  | .normal => s.returnToNormal i
  | .lo | .lolo | .hi | .hihi => s.enterCondition i x

/-! ## Applying a sample (R88 to R92, R97) -/

/-- The pending count a candidate other than the condition brings (R97 steps 2 and 3). -/
def nextCount (s : State) (i : SlotNo) (x : Condition) : Nat :=
  if (s.slot i).pendingCandidate = some x then (s.slot i).pendingCount + 1 else 1

/-- The confirmation machine (R97). -/
def confirm (s : State) (i : SlotNo) (x : Condition) : State :=
  if x = (s.slot i).condition then
    s.setSlot i { s.slot i with pendingCandidate := none, pendingCount := 0 }
  else if s.nextCount i x = (s.slot i).cfg.confirm then
    (s.setSlot i { s.slot i with pendingCandidate := none, pendingCount := 0 }).changeCondition i x
  else
    s.setSlot i { s.slot i with pendingCandidate := some x, pendingCount := s.nextCount i x }

/-- The restart of the stale timer at an applied sample (R91). -/
def restartOnSample (s : State) (i : SlotNo) : State := if s.listedActive i then s.startTimer i else s

/-- The quality notices of an applied sample, from the quality the point had before (R92). -/
def qualityNotices (s : State) (i : SlotNo) (before : Quality) : State :=
  let s := if before = .stale ∧ (s.slot i).cfg.policy = .follow then s.staleWithdraw i else s
  if (s.slot i).quality = .clipped ∧ before ≠ .clipped ∧ (s.slot i).cfg.notifyQuality = true then
    s.raise i .clipped (s.slot i).condition
  else s

/-- The evaluator applies a sample of this record (R88). -/
def sampleApplies (s : State) (j : ScanJob) : Bool :=
  s.names j.slot j.gen && (s.slot j.slot).cfg.channel == j.channel && (s.slot j.slot).cfg.gain == j.gain

/-- The application of a sample to a slot's point, in the six steps of R89. -/
def applySample (s : State) (i : SlotNo) (raw : RawReading) : State :=
  let before := (s.slot i).quality
  let s := s.setSlot i ((s.slot i).sampled raw)
  let s := (s.restartOnSample i).qualityNotices i before
  s.confirm i (candidate (s.slot i).cfg (s.slot i).condition (s.slot i).value)

/-- A sample handed to the evaluator with its job's record: applied, or discarded with nothing changed (R87, R88). -/
def evaluate (s : State) (j : ScanJob) (raw : RawReading) : State :=
  if s.sampleApplies j then s.applySample j.slot raw else s

end State

end Sys2Proof.Machine
end

