-- ==== Sys2Proof/Machine/Converting.lean ====
section
/-! DEFINITION. The conversion front end: CONVERT.DIRECT, POINT.SAMPLE, the arbiter's grant, settling and completion
(R70 to R86). -/

namespace Sys2Proof.Machine

/-- The settling time of a gain, in microseconds (R73). -/
def Gain.settleTime : Gain → Nat
  | .g1 => 18
  | .g4 => 22
  | .g16 => 30
  | .g64 => 46

namespace State

/-- A direct job joins the direct queue at its tail (R76). -/
def enqueue (s : State) (j : DirectJob) : State :=
  s.setFrontEnd { s.frontEnd with queue := s.frontEnd.queue ++ [j] }

/-- CONVERT.DIRECT, carried by a request of tag `t` (R77). -/
def ownConvert (p : Port) (t : Tag) (channel gain : Byte) (s : State) : State × Reply :=
  match channelOf channel, gainOf gain with
  | some ch, some g =>
    (s.enqueue { port := p, tag := t, target := .convert ch g, disposition := .answer }, .waits)
  | _, _ => s.reply .badArgument

/-- POINT.SAMPLE, carried by a request of tag `t` (R79). -/
def ownSample (p : Port) (t : Tag) (slot gen : Byte) (s : State) : State × Reply :=
  s.withRef slot gen fun i =>
    (s.enqueue { port := p, tag := t, target := .sample i gen, disposition := .answer }, .waits)

/-- A granted job enters the converter: SAMPLING at once where its selection is open, SETTLING otherwise (R73). -/
def enter (s : State) (j : HeldJob) (ch : ChannelNo) (g : Gain) : State :=
  if s.frontEnd.openSel = some { channel := ch, gain := g } then
    s.setFrontEnd { s.frontEnd with converter := .sampling j (s.now + Config.conversionTime) }
  else
    s.setFrontEnd { s.frontEnd with
      openSel := some { channel := ch, gain := g }
      converter := .settling j (s.now + g.settleTime) }

/-- The direct queue without its head. -/
def popQueue (s : State) : State := s.setFrontEnd { s.frontEnd with queue := s.frontEnd.queue.tail }

/-- The grant of the job at the head of the direct queue; a stale POINT.SAMPLE is answered instead (R80, R82). -/
def grantDirect (s : State) (j : DirectJob) : State :=
  match j.target with
  | .convert ch g => s.popQueue.enter (.direct j ch g) ch g
  | .sample i gen =>
    if s.names i gen = true then
      s.popQueue.enter (.direct j (s.slot i).cfg.channel (s.slot i).cfg.gain) (s.slot i).cfg.channel
        (s.slot i).cfg.gain
    else s.popQueue.answerTag j.port j.tag .staleRef []

/-- A class's posted job (R56). -/
def postedJob (s : State) (c : ClassNo) : Option ScanJob :=
  match (s.cls c).job with
  | none => none
  | some j =>
    match j.phase with
    | .posted => some j.job
    | .converting => none

/-- The posted job of the lowest-numbered class that holds one (R82). -/
def lowestPosted (s : State) : Option (ClassNo × ScanJob) :=
  allClasses.findSome? fun c => (s.postedJob c).map fun j => (c, j)

/-- The grant of a class's posted job (R57, R83). -/
def grantScan (s : State) (c : ClassNo) (j : ScanJob) : State :=
  (s.setCls c { s.cls c with job := some { job := j, phase := .converting } }).enter (.scan c j) j.channel j.gain

/-- A grant by the arbiter: the direct queue before the classes, lower classes before higher; nothing where the
converter is not IDLE or no job waits (R82). -/
def grantNext (s : State) : State :=
  match s.frontEnd.converter with
  | .settling _ _ | .sampling _ _ => s
  | .idle =>
    match s.frontEnd.queue, s.lowestPosted with
    | j :: _, _ => s.grantDirect j
    | [], some (c, j) => s.grantScan c j
    | [], none => s

/-- The converter goes IDLE at a completion, and a clipped sample closes the open selection (R74). -/
def freeConverter (s : State) (raw : RawReading) : State :=
  s.setFrontEnd { s.frontEnd with
    converter := .idle
    openSel := if clippedFlag raw then none else s.frontEnd.openSel }

/-- The completion of a POINT.SAMPLE job of disposition ANSWER: the evaluator, the waits its notices serve, then the
answer (R81, R125). -/
def completeSample (s : State) (j : DirectJob) (scan : ScanJob) (raw : RawReading) : State :=
  if s.sampleApplies scan then
    ((s.applySample scan.slot raw).serveWaits).answerTag j.port j.tag .ok
      ((s.applySample scan.slot raw).sampleBytes scan.slot)
  else s.answerTag j.port j.tag .staleRef []

/-- The completion of a direct job (R75, R78, R81). -/
def completeDirect (s : State) (j : DirectJob) (ch : ChannelNo) (g : Gain) (raw : RawReading) : State :=
  match j.disposition with
  | .discard => s
  | .answer =>
    match j.target with
    | .convert _ _ => s.answerTag j.port j.tag .ok (rawBytes raw ++ [yesNoByte (clippedFlag raw)])
    | .sample i gen => s.completeSample j { slot := i, gen := gen, channel := ch, gain := g } raw

/-- The sample goes to the job's requester, with everything that follows from it in the same event (R58, R74). -/
def completeJob (s : State) (j : HeldJob) (raw : RawReading) : State :=
  match j with
  | .scan c scan => ((s.evaluate scan raw).finishJob c).serveWaits
  | .direct j ch g => s.completeDirect j ch g raw

end State

/-- POINT_SAMPLE (R79). -/
def execPointSample (p : Port) (t : Tag) (slot gen : Byte) (s : State) : Host.Outcome State Fault Refusal :=
  .next (s.request p t .pointSample (State.ownSample p t slot gen))

/-- CONVERT_DIRECT (R77). -/
def execConvertDirect (p : Port) (t : Tag) (channel gain : Byte) (s : State) : Host.Outcome State Fault Refusal :=
  .next (s.request p t .convertDirect (State.ownConvert p t channel gain))

/-- GRANT (R82). -/
def execGrant (s : State) : Host.Outcome State Fault Refusal := .next (s.event State.grantNext)

/-- SETTLING_ELAPSED (R73). -/
def execSettlingElapsed (s : State) : Host.Outcome State Fault Refusal :=
  .next (s.event fun s =>
    match s.frontEnd.converter with
    | .settling j due =>
      (s.advanceTo due).setFrontEnd { s.frontEnd with
        converter := .sampling j (max s.now due + Config.conversionTime) }
    | .idle | .sampling _ _ => s)

/-- CONVERSION_COMPLETE: the reading is the input's at the job's gain (R70, R74). -/
def execConversionComplete (input : Int) (s : State) : Host.Outcome State Fault Refusal :=
  .next (s.event fun s =>
    match s.frontEnd.converter with
    | .sampling j due => ((s.advanceTo due).freeConverter (j.gain.reading input)).completeJob j (j.gain.reading input)
    | .idle | .settling _ _ => s)

/-- STALE_EXPIRY (R105). -/
def execStaleExpiry (i : SlotNo) (s : State) : Host.Outcome State Fault Refusal :=
  .next (s.event fun s =>
    match (s.slot i).staleTimer with
    | none => s
    | some due =>
      (((s.advanceTo due).setSlot i { s.slot i with quality := .stale, staleTimer := none }).raise i .stale
        (s.slot i).condition).serveWaits)

end Sys2Proof.Machine
end

