-- ==== Sys2Proof/Machine/Edits.lean ====
section
/-! DEFINITION. Editing under claim: EDIT.OPEN, EDIT.SET, EDIT.COMMIT, EDIT.DROP and the lapse of a claim (R27 to
R44). -/

namespace Sys2Proof.Machine

namespace State

/-- The claim a port holds on a slot's point, if it holds one (R31, R33, R39). -/
def ownClaim (s : State) (p : Port) (i : SlotNo) : Option Claim :=
  (s.slot i).claim.filter fun c => c.owner == p

/-- EDIT.OPEN (R29). -/
def ownOpen (p : Port) (slot gen : Byte) (s : State) : State × Reply :=
  s.withRef slot gen fun i =>
    match (s.slot i).claim with
    | none =>
      (s.setSlot i { s.slot i with
          claim := some { owner := p, staged := (s.slot i).cfg, due := s.claimDue p } },
        .done .ok (0 :: configBytes (s.slot i).cfg))
    | some c =>
      if c.owner = p then
        (s.setSlot i { s.slot i with claim := some { c with due := s.claimDue p } },
          .done .ok (1 :: configBytes c.staged))
      else s.reply .claimed [portCode (some c.owner)]

/-- EDIT.SET, tested in the order of R31. -/
def ownEditSet (p : Port) (slot gen field presence : Byte) (area : BitVec 64) (s : State) : State × Reply :=
  match fieldEdit field presence area with
  | none => s.reply .badArgument
  | some edit =>
    s.withRef slot gen fun i =>
      match s.ownClaim p i with
      | none => s.reply .noClaim
      | some c =>
        (s.setSlot i { s.slot i with claim := some { c with staged := edit c.staged, due := s.claimDue p } },
          .done .ok [])

/-- The stale timer a commit sets, from the interval before and the one committed (R36). -/
def commitTimer (s : State) (i : SlotNo) (before : Option Nat) : State :=
  if s.listedActive i = true ∧ (s.slot i).cfg.staleInterval ≠ before then
    match (s.slot i).cfg.staleInterval with
    | none => s.stopTimer i
    | some _ => s.startTimer i
  else s

/-- The commit of a staged copy to a slot's point (R34 to R36). -/
def commit (s : State) (i : SlotNo) (staged : PointConfig) : State :=
  let before := (s.slot i).cfg.staleInterval
  let s := s.setSlot i { s.slot i with
    cfg := staged, claim := none, pendingCandidate := none, pendingCount := 0 }
  let s :=
    if (s.slot i).condition ≠ .normal ∧ limitOf staged (s.slot i).condition = none then
      s.changeCondition i .normal
    else s
  s.commitTimer i before

/-- EDIT.COMMIT (R33, R34). -/
def ownCommit (p : Port) (slot gen : Byte) (s : State) : State × Reply :=
  s.withRef slot gen fun i =>
    match s.ownClaim p i with
    | none => s.reply .noClaim
    | some c =>
      if limitCheck c.staged = false then s.reply .invalidLimits
      else ((s.commit i c.staged).serveWaits, .done .ok [byte i.val, (s.slot i).gen])

/-- EDIT.DROP (R39). -/
def ownDrop (p : Port) (slot gen : Byte) (s : State) : State × Reply :=
  s.withRef slot gen fun i =>
    match s.ownClaim p i with
    | none => s.reply .noClaim
    | some _ => (s.setSlot i { s.slot i with claim := none }, .done .ok [])

end State

/-- EDIT_OPEN (R29). -/
def execEditOpen (p : Port) (t : Tag) (slot gen : Byte) (s : State) : Host.Outcome State Fault Refusal :=
  .next (s.request p t .editOpen (State.ownOpen p slot gen))

/-- EDIT_SET (R31). -/
def execEditSet (p : Port) (t : Tag) (slot gen field presence : Byte) (area : BitVec 64) (s : State) :
    Host.Outcome State Fault Refusal :=
  .next (s.request p t .editSet (State.ownEditSet p slot gen field presence area))

/-- EDIT_COMMIT (R33 to R36). -/
def execEditCommit (p : Port) (t : Tag) (slot gen : Byte) (s : State) : Host.Outcome State Fault Refusal :=
  .next (s.request p t .editCommit (State.ownCommit p slot gen))

/-- EDIT_DROP (R39). -/
def execEditDrop (p : Port) (t : Tag) (slot gen : Byte) (s : State) : Host.Outcome State Fault Refusal :=
  .next (s.request p t .editDrop (State.ownDrop p slot gen))

/-- CLAIM_LAPSE: the claim on a slot's point, if there is one, is discarded with its staged copy (R28). -/
def execClaimLapse (i : SlotNo) (s : State) : Host.Outcome State Fault Refusal :=
  .next (s.event fun s =>
    match (s.slot i).claim with
    | none => s
    | some c => (s.advanceTo c.due).setSlot i { s.slot i with claim := none })

end Sys2Proof.Machine
end

