-- ==== Sys2Proof/Machine/Notices.lean ====
section
/-! DEFINITION. The requests on notices: NOTICE.FETCH, NOTICE.WAIT, NOTICE.ACK and the timeout of a wait (R122 to
R130). -/

namespace Sys2Proof.Machine

namespace State

/-- NOTICE.FETCH (R122, R123). -/
def ownFetch (p : Port) (s : State) : State × Reply :=
  match s.fetch p with
  | none => s.reply .none
  | some (s', data) => (s', .done .ok data)

/-- NOTICE.WAIT, carried by a request of tag `t` (R124). -/
def ownWait (p : Port) (t : Tag) (timeout : Word16) (s : State) : State × Reply :=
  if timeout = 0 then s.reply .badArgument
  else if s.waits.any fun w => w.port == p then s.reply .busy
  else
    match s.fetch p with
    | some (s', data) => (s', .done .ok data)
    | none =>
      (s.setWaits (s.waits ++ [{ port := p, tag := t, due := s.now + timeout.toNat * Config.msTick }]), .waits)

/-- An acknowledged notice made PENDING anew from its follow-on, with the next raise sequence (R130). -/
def renewNotice (s : State) (i : SlotNo) (n : Notice) (f : FollowOn) : State :=
  s.countRaise.setNotice i (some (Notice.fresh n.gen f.cause f.condition f.severity (s.raiseSeq + 1)))

/-- The acknowledgement of a notice delivered to the port (R129, R130). -/
def acknowledge (s : State) (i : SlotNo) (n : Notice) : State :=
  match n.followOn with
  | none => s.setNotice i none
  | some f => (s.renewNotice i n f).serveWaits

/-- NOTICE.ACK (R129). -/
def ownAck (p : Port) (slot gen : Byte) (s : State) : State × Reply :=
  s.withRef slot gen fun i =>
    match s.notice i with
    | none => s.reply .notDelivered
    | some n =>
      if n.state = .delivered p then (s.acknowledge i n, .done .ok [])
      else s.reply .notDelivered

end State

/-- NOTICE_FETCH (R122). -/
def execNoticeFetch (p : Port) (t : Tag) (s : State) : Host.Outcome State Fault Refusal :=
  .next (s.request p t .noticeFetch (State.ownFetch p))

/-- NOTICE_WAIT (R124). -/
def execNoticeWait (p : Port) (t : Tag) (timeout : Word16) (s : State) : Host.Outcome State Fault Refusal :=
  .next (s.request p t .noticeWait (State.ownWait p t timeout))

/-- NOTICE_ACK (R129, R130). -/
def execNoticeAck (p : Port) (t : Tag) (slot gen : Byte) (s : State) : Host.Outcome State Fault Refusal :=
  .next (s.request p t .noticeAck (State.ownAck p slot gen))

/-- WAIT_TIMEOUT: the port's waiting NOTICE.WAIT, if there is one, is answered NONE (R127). -/
def execWaitTimeout (p : Port) (s : State) : Host.Outcome State Fault Refusal :=
  .next (s.event fun s =>
    match s.waits.find? fun w => w.port == p with
    | none => s
    | some w => ((s.advanceTo w.due).dropWait p).answerTag p w.tag .none [])

end Sys2Proof.Machine
end

