-- ==== Sys2Proof/Machine/Outputs.lean ====
section
/-! DEFINITION. The requests on output channels (R151 to R159). -/

namespace Sys2Proof.Machine

namespace State

/-- The channel's pin is held by the other port (R153, R155, R158). -/
def pinnedByOther (s : State) (p : Port) (o : OutputNo) : Bool := (s.output o).pin == some p.other

/-- OUTPUT.WRITE (R153). -/
def ownWrite (p : Port) (channel : Byte) (value : Word16) (s : State) : State × Reply :=
  match outputOf channel, levelOf value with
  | some o, some v =>
    if s.pinnedByOther p o then s.reply .pinned
    else (s.setOutput o { s.output o with value := v, lastWriter := .port p, saved := none }, .done .ok [])
  | _, _ => s.reply .badArgument

/-- OUTPUT.PIN (R155). -/
def ownPin (p : Port) (channel : Byte) (s : State) : State × Reply :=
  match outputOf channel with
  | none => s.reply .badArgument
  | some o =>
    if s.pinnedByOther p o then s.reply .pinned
    else (s.setOutput o { s.output o with pin := some p }, .done .ok (pinBytes (s.output o)))

/-- OUTPUT.UNPIN (R156). -/
def ownUnpin (p : Port) (channel : Byte) (s : State) : State × Reply :=
  match outputOf channel with
  | none => s.reply .badArgument
  | some o =>
    if (s.output o).pin = some p then (s.setOutput o { s.output o with pin := none }, .done .ok [])
    else s.reply .notPinned

/-- The fallback a presence byte and a value ask for, none where they are out of range (R158, R187). -/
def fallbackOf (presence : Byte) (value : Word16) : Option (Option Level) :=
  match yesNoOf presence with
  | none => none
  | some false => some none
  | some true => (levelOf value).map some

/-- OUTPUT.FALLBACK (R158). -/
def ownFallback (p : Port) (channel presence : Byte) (value : Word16) (s : State) : State × Reply :=
  match outputOf channel, fallbackOf presence value with
  | some o, some f =>
    if s.pinnedByOther p o then s.reply .pinned
    else (s.setOutput o { s.output o with fallback := f }, .done .ok [])
  | _, _ => s.reply .badArgument

/-- OUTPUT.READ (R159). -/
def ownOutputRead (channel : Byte) (s : State) : State × Reply :=
  match outputOf channel with
  | none => s.reply .badArgument
  | some o => s.reply .ok (outputBytes (s.output o))

end State

/-- OUTPUT_WRITE (R153). -/
def execOutputWrite (p : Port) (t : Tag) (channel : Byte) (value : Word16) (s : State) :
    Host.Outcome State Fault Refusal :=
  .next (s.request p t .outputWrite (State.ownWrite p channel value))

/-- OUTPUT_PIN (R155). -/
def execOutputPin (p : Port) (t : Tag) (channel : Byte) (s : State) : Host.Outcome State Fault Refusal :=
  .next (s.request p t .outputPin (State.ownPin p channel))

/-- OUTPUT_UNPIN (R156). -/
def execOutputUnpin (p : Port) (t : Tag) (channel : Byte) (s : State) : Host.Outcome State Fault Refusal :=
  .next (s.request p t .outputUnpin (State.ownUnpin p channel))

/-- OUTPUT_FALLBACK (R158). -/
def execOutputFallback (p : Port) (t : Tag) (channel presence : Byte) (value : Word16) (s : State) :
    Host.Outcome State Fault Refusal :=
  .next (s.request p t .outputFallback (State.ownFallback p channel presence value))

/-- OUTPUT_READ (R159). -/
def execOutputRead (p : Port) (t : Tag) (channel : Byte) (s : State) : Host.Outcome State Fault Refusal :=
  .next (s.request p t .outputRead (State.ownOutputRead channel))

end Sys2Proof.Machine
end

