-- ==== Sys2Proof/Machine/Ports.lean ====
section
/-! DEFINITION. The PORT requests and COLLECT (R172 to R181). -/

namespace Sys2Proof.Machine

namespace State

/-! ## COLLECT (R172) -/

/-- The answer a COLLECT chooses, with whether it is a refusal (R172). -/
def collectChoice (s : State) (p : Port) : Option (Bool × Answer) :=
  match (s.port p).refusals, (s.port p).queue with
  | r :: _, _ => some (true, r)
  | [], a :: _ => some (false, a)
  | [], [] => none

/-- What a COLLECT clocks out before the summary: the chosen answer's frame, or the empty indication (R172, R185). -/
def chosenBytes : Option (Bool × Answer) → List Byte
  | some (refusal, a) => responseFrame refusal a
  | none => [0x00]

/-- The removal of a chosen answer: a refusal leaves its slot, an answer leaves the queue and closes its tag (R170,
R172). -/
def removeChosen (s : State) (p : Port) : Option (Bool × Answer) → State
  | none => s
  | some (true, _) => s.setPort p { s.port p with refusals := (s.port p).refusals.tail }
  | some (false, a) => s.setPort p { s.port p with
      queue := (s.port p).queue.tail
      openTags := (s.port p).openTags.filter fun e => e.tag != a.tag }

/-- The two summary bytes (R172). -/
def summary (s : State) (p : Port) : List Byte := [byte (s.deliverableCount p), byte (s.port p).openTags.length]

/-- The bytes a COLLECT drives when `clocked` bytes are clocked: those left to send, then 0xFF (R185). -/
def clockOut (sent : List Byte) (clocked : Nat) : List Byte :=
  sent.take clocked ++ List.replicate (clocked - sent.length) 0xFF

/-- Bytes driven on the port's data-out, and what the COLLECT has still to do after them. -/
def drive (s : State) (p : Port) (bytes : List Byte) (left : CollectPhase) : State :=
  s.setPort p { s.port p with clockedOut := (s.port p).clockedOut ++ bytes, collecting := some left }

/-- The command byte of a COLLECT is taken: the choice is made, and nothing has been clocked out (R172). -/
def beginCollect (s : State) (p : Port) : State :=
  s.setPort p { s.port p with
    clockedOut := [], collecting := some (.frame (s.collectChoice p) (chosenBytes (s.collectChoice p))) }

/-- `clocked` bytes of a COLLECT under way. With the last byte of what was chosen the answer is removed, and the summary
is taken as it then stands (R172). -/
def clockBytes (s : State) (p : Port) (clocked : Nat) : State :=
  match (s.port p).collecting with
  | none | some .ignored => s
  | some (.summary rest) => s.drive p (clockOut rest clocked) (.summary (rest.drop clocked))
  | some (.frame chosen rest) =>
    if clocked < rest.length then s.drive p (rest.take clocked) (.frame chosen (rest.drop clocked))
    else
      let s := s.removeChosen p chosen
      s.drive p (clockOut (rest ++ s.summary p) clocked) (.summary ((s.summary p).drop (clocked - rest.length)))

/-- A COLLECT's work on its port, begun here unless it is under way (R172). -/
def collectOn (s : State) (p : Port) (clocked : Nat) : State :=
  match (s.port p).collecting with
  | none => (s.beginCollect p).clockBytes p clocked
  | some _ => s.clockBytes p clocked

/-! ## The owners of the PORT requests -/

/-- PORT.ATTACH (R174). -/
def ownAttach (p : Port) (timeout threshold : Byte) (s : State) : State × Reply :=
  match thresholdOf threshold with
  | none => s.reply .badArgument
  | some th =>
    if s.attached p then s.reply .alreadyAttached
    else
      (s.setPort p { s.port p with session := .attached, timeoutSteps := timeoutOf timeout, threshold := th },
        .done .ok [])

/-- PORT.SET (R120, R175). -/
def ownSet (p : Port) (timeout threshold : Byte) (s : State) : State × Reply :=
  match thresholdOf threshold with
  | none => s.reply .badArgument
  | some th =>
    ((s.setPort p { s.port p with timeoutSteps := timeoutOf timeout, threshold := th }).serveWaits, .done .ok [])

/-- PORT.STATUS (R176). -/
def ownStatus (p : Port) (clear : Byte) (s : State) : State × Reply :=
  match yesNoOf clear with
  | none => s.reply .badArgument
  | some false => s.reply .ok (portBytes (s.port p))
  | some true => (s.setPort p { s.port p with frameErrors := 0, dropped := 0 }, .done .ok (portBytes (s.port p)))

/-- A direct job is a waiting request of a port under a tag (R75, R84). -/
def isRequest (p : Port) (t : Tag) (j : DirectJob) : Bool :=
  j.port == p && j.tag == t && j.disposition == .answer

/-- The converter holds a direct job that is a waiting request of a port under a tag (R84). -/
def convertingRequest (s : State) (p : Port) (t : Tag) : Bool :=
  match s.frontEnd.converter with
  | .idle => false
  | .settling (.scan _ _) _ | .sampling (.scan _ _) _ => false
  | .settling (.direct j _ _) _ | .sampling (.direct j _ _) _ => isRequest p t j

/-- The effect of a cancel on the waiting request a tag names, none where it names none (R84, R128, R178). -/
def cancelEffect (s : State) (p : Port) (t : Tag) : Option State :=
  if s.frontEnd.queue.any (isRequest p t) then
    some (s.setFrontEnd { s.frontEnd with queue := s.frontEnd.queue.filter fun j => !isRequest p t j })
  else if s.convertingRequest p t then
    some (s.setFrontEnd { s.frontEnd with converter := s.frontEnd.converter.discardFor (isRequest p t) })
  else if s.waits.any fun w => w.port == p && w.tag == t then some (s.dropWait p)
  else none

/-- PORT.CANCEL, carried by a request of tag `own`, which it cannot name (R178). -/
def ownCancel (p : Port) (own : Tag) (target : Byte) (s : State) : State × Reply :=
  match tagOf target with
  | none => s.reply .badArgument
  | some t =>
    if t = own then s.reply .notOutstanding
    else
      match s.cancelEffect p t with
      | none => s.reply .notOutstanding
      | some s' => (s'.answerTag p t .cancelled [], .done .ok [])

/-- PORT.DETACH, carried by a request of tag `own`: the session end leaves its tag the one open tag (R180, R181). -/
def ownDetach (p : Port) (own : Tag) (s : State) : State × Reply :=
  ((s.endSession p).openTag p own Kind.portDetach.code, .done .ok [])

end State

/-- COLLECT (R172). An ignored select period stays one until select is deasserted (R191). -/
def execCollect (p : Port) (part : CollectPart) (s : State) : Host.Outcome State Fault Refusal :=
  if s.rstAsserted = true ∨ (s.port p).prstAsserted = true then .next s
  else if (s.port p).selectIgnored = true then
    .next (s.setPort p { s.port p with selectIgnored := false, collecting := if part.more then some .ignored else none })
  else if part.more then .next (s.collectOn p part.clocked).updateAttention
  else .next ((s.collectOn p part.clocked).endCollect p).updateAttention

/-- PORT_ATTACH (R174). -/
def execPortAttach (p : Port) (t : Tag) (timeout threshold : Byte) (s : State) : Host.Outcome State Fault Refusal :=
  .next (s.request p t .portAttach (State.ownAttach p timeout threshold))

/-- PORT_SET (R175). -/
def execPortSet (p : Port) (t : Tag) (timeout threshold : Byte) (s : State) : Host.Outcome State Fault Refusal :=
  .next (s.request p t .portSet (State.ownSet p timeout threshold))

/-- PORT_STATUS (R176). -/
def execPortStatus (p : Port) (t : Tag) (clear : Byte) (s : State) : Host.Outcome State Fault Refusal :=
  .next (s.request p t .portStatus (State.ownStatus p clear))

/-- PORT_CANCEL (R178). -/
def execPortCancel (p : Port) (t : Tag) (target : Byte) (s : State) : Host.Outcome State Fault Refusal :=
  .next (s.request p t .portCancel (State.ownCancel p t target))

/-- PORT_DETACH (R180). -/
def execPortDetach (p : Port) (t : Tag) (s : State) : Host.Outcome State Fault Refusal :=
  .next (s.request p t .portDetach (State.ownDetach p t))

end Sys2Proof.Machine
end

