-- ==== Sys2Proof/WellFormed.lean ====
section
/-! DEFINITION. When a command is one of its row. A request is well-formed at every value of its bytes (a value out of
range is answered, R187). The rows that name a fate of a transaction hold only the transactions that meet it, as far
as the bytes alone say. -/

namespace Sys2Proof

/-- A command's operands are those of its row of the table. -/
def WellFormed (i : Instr) : Bool :=
  match i with
  | .badCommandByte _ b => b != submitByte && b != collectByte
  | .frameDiscard _ bytes => (checkFrame bytes).isNone
  | .badRequestFrame p t kind args => args.length ≤ 60 && (decodeRequest p t kind args).isNone
  | .requestRefusal _ _ _ args => args.length ≤ 60
  | .powerUp _ _ _ | .deviceReset | .rstnRelease _ _ | .prstnAssert _ | .prstnRelease _ _ | .collect _ _
  | .portAttach _ _ _ _ | .portSet _ _ _ _ | .portStatus _ _ _ | .portCancel _ _ _ | .portDetach _ _
  | .pointDefine _ _ _ | .pointFind _ _ _ | .pointRead _ _ _ _ | .tableSummary _ _ _ | .pointRetire _ _ _ _
  | .pointSample _ _ _ _ | .editOpen _ _ _ _ | .editSet _ _ _ _ _ _ _ | .editCommit _ _ _ _ | .editDrop _ _ _ _
  | .classConfig _ _ _ _ _ | .classStart _ _ _ | .classStop _ _ _ | .classTrigger _ _ _ | .classStatus _ _ _ _
  | .listInsert _ _ _ _ _ _ | .listRemove _ _ _ _ _ | .listRead _ _ _ | .convertDirect _ _ _ _
  | .noticeFetch _ _ | .noticeWait _ _ _ | .noticeAck _ _ _ _
  | .actionCreate _ _ _ _ _ _ _ | .actionLink _ _ _ _ _ | .actionUnlink _ _ _ _ | .actionRearm _ _ _ _
  | .actionFree _ _ _ | .actionRead _ _ _
  | .outputWrite _ _ _ _ | .outputPin _ _ _ | .outputUnpin _ _ _ | .outputFallback _ _ _ _ _ | .outputRead _ _ _
  | .periodExpiry _ | .xtRisingEdge _ | .grant | .settlingElapsed | .conversionComplete _ | .claimLapse _
  | .staleExpiry _ | .waitTimeout _ => true

end Sys2Proof
end

