-- ==== Sys2Proof/Machine/Transactions.lean ====
section
/-! DEFINITION. Transactions as bytes: what a port does with a command byte and with the bytes of a SUBMIT (R164 to
R169). -/

namespace Sys2Proof.Machine

/-- The meaning of the request that a frame spells; a command that no frame spells does nothing here. -/
def runRequest (i : Instr) (s : State) : Host.Outcome State Fault Refusal :=
  match i with
  | .portAttach p t a b => execPortAttach p t a b s
  | .portSet p t a b => execPortSet p t a b s
  | .portStatus p t a => execPortStatus p t a s
  | .portCancel p t a => execPortCancel p t a s
  | .portDetach p t => execPortDetach p t s
  | .pointDefine p t b => execPointDefine p t b s
  | .pointFind p t k => execPointFind p t k s
  | .pointRead p t a b => execPointRead p t a b s
  | .tableSummary p t a => execTableSummary p t a s
  | .pointRetire p t a b => execPointRetire p t a b s
  | .pointSample p t a b => execPointSample p t a b s
  | .editOpen p t a b => execEditOpen p t a b s
  | .editSet p t a b f q v => execEditSet p t a b f q v s
  | .editCommit p t a b => execEditCommit p t a b s
  | .editDrop p t a b => execEditDrop p t a b s
  | .classConfig p t c q n => execClassConfig p t c q n s
  | .classStart p t c => execClassStart p t c s
  | .classStop p t c => execClassStop p t c s
  | .classTrigger p t c => execClassTrigger p t c s
  | .classStatus p t c q => execClassStatus p t c q s
  | .listInsert p t c a b n => execListInsert p t c a b n s
  | .listRemove p t c a b => execListRemove p t c a b s
  | .listRead p t c => execListRead p t c s
  | .convertDirect p t c g => execConvertDirect p t c g s
  | .noticeFetch p t => execNoticeFetch p t s
  | .noticeWait p t n => execNoticeWait p t n s
  | .noticeAck p t a b => execNoticeAck p t a b s
  | .actionCreate p t m o d b f => execActionCreate p t m o d b f s
  | .actionLink p t n a b => execActionLink p t n a b s
  | .actionUnlink p t a b => execActionUnlink p t a b s
  | .actionRearm p t n b => execActionRearm p t n b s
  | .actionFree p t n => execActionFree p t n s
  | .actionRead p t n => execActionRead p t n s
  | .outputWrite p t c v => execOutputWrite p t c v s
  | .outputPin p t c => execOutputPin p t c s
  | .outputUnpin p t c => execOutputUnpin p t c s
  | .outputFallback p t c q v => execOutputFallback p t c q v s
  | .outputRead p t c => execOutputRead p t c s
  | .powerUp _ _ _ | .deviceReset | .rstnRelease _ _ | .prstnAssert _ | .prstnRelease _ _
  | .badCommandByte _ _ | .frameDiscard _ _ | .badRequestFrame _ _ _ _ | .collect _ _
  | .periodExpiry _ | .xtRisingEdge _ | .grant | .settlingElapsed | .conversionComplete _
  | .claimLapse _ | .staleExpiry _ | .waitTimeout _ | .requestRefusal _ _ _ _ => .next s

/-- A frame that passed the frame checks: the request it spells, or an accepted frame answered BAD_REQUEST (R169). -/
def takeFrame (p : Port) (t : Tag) (kind : Byte) (args : List Byte) (s : State) : Host.Outcome State Fault Refusal :=
  match decodeRequest p t kind args with
  | some i => runRequest i s
  | none => .next (s.submit p t kind false fun s => s.reply .badRequest)

/-- A transaction that only counts a frame error (R164, R166). -/
def countError (p : Port) (s : State) : Host.Outcome State Fault Refusal :=
  .next (s.transaction p fun s => s.countFrameError p)

/-- A SUBMIT transaction with the bytes clocked in after its command byte (R165, R166). -/
def takeSubmit (p : Port) (bytes : List Byte) (s : State) : Host.Outcome State Fault Refusal :=
  match checkFrame bytes with
  | none => countError p s
  | some (t, kind, args) => takeFrame p t kind args s

/-- BAD_COMMAND_BYTE: a byte that names SUBMIT or COLLECT after all begins that transaction, with nothing clocked after
it (R164). DESIGN CHOICE: log entry 10. -/
def execBadCommandByte (p : Port) (b : Byte) (s : State) : Host.Outcome State Fault Refusal :=
  if b = submitByte then takeSubmit p [] s
  else if b = collectByte then .next (s.transaction p fun s => (s.beginCollect p).endCollect p)
  else countError p s

/-- FRAME_DISCARD: bytes that pass the frame checks after all are taken as the frame they are (R166). -/
def execFrameDiscard (p : Port) (bytes : List Byte) (s : State) : Host.Outcome State Fault Refusal :=
  takeSubmit p bytes s

/-- BAD_REQUEST_FRAME: arguments that do spell a request are taken as that request (R169). -/
def execBadRequestFrame (p : Port) (t : Tag) (kind : Byte) (args : List Byte) (s : State) :
    Host.Outcome State Fault Refusal :=
  takeFrame p t kind args s

/-- REQUEST_REFUSAL: the port's checks of the tag come before the request is decoded, and where neither refuses it the
frame goes on as any other (R167). -/
def execRequestRefusal (p : Port) (t : Tag) (kind : Byte) (args : List Byte) (s : State) :
    Host.Outcome State Fault Refusal :=
  takeFrame p t kind args s

end Sys2Proof.Machine
end

