-- ==== Sys2Proof/Machine/Dispatch.lean ====
section
/-! DEFINITION. Which meaning each command has: one arm per constructor, each a direct call. -/

namespace Sys2Proof.Machine

/-- The effect of a command on everything but the queue of waiting commands. -/
def exec (i : Instr) (s : State) : Host.Outcome State Fault Refusal :=
  match i with
  | .powerUp rst hPrst lPrst => Sys2Proof.Machine.execPowerUp rst hPrst lPrst s
  | .deviceReset => Sys2Proof.Machine.execDeviceReset s
  | .rstnRelease hSelect lSelect => Sys2Proof.Machine.execRstnRelease hSelect lSelect s
  | .prstnAssert p => Sys2Proof.Machine.execPrstnAssert p s
  | .prstnRelease p select => Sys2Proof.Machine.execPrstnRelease p select s
  | .badCommandByte p b => Sys2Proof.Machine.execBadCommandByte p b s
  | .frameDiscard p bytes => Sys2Proof.Machine.execFrameDiscard p bytes s
  | .badRequestFrame p t kind args => Sys2Proof.Machine.execBadRequestFrame p t kind args s
  | .collect p part => Sys2Proof.Machine.execCollect p part s
  | .portAttach p t timeout threshold => Sys2Proof.Machine.execPortAttach p t timeout threshold s
  | .portSet p t timeout threshold => Sys2Proof.Machine.execPortSet p t timeout threshold s
  | .portStatus p t clear => Sys2Proof.Machine.execPortStatus p t clear s
  | .portCancel p t target => Sys2Proof.Machine.execPortCancel p t target s
  | .portDetach p t => Sys2Proof.Machine.execPortDetach p t s
  | .pointDefine p t block => Sys2Proof.Machine.execPointDefine p t block s
  | .pointFind p t key => Sys2Proof.Machine.execPointFind p t key s
  | .pointRead p t slot gen => Sys2Proof.Machine.execPointRead p t slot gen s
  | .tableSummary p t start => Sys2Proof.Machine.execTableSummary p t start s
  | .pointRetire p t slot gen => Sys2Proof.Machine.execPointRetire p t slot gen s
  | .pointSample p t slot gen => Sys2Proof.Machine.execPointSample p t slot gen s
  | .editOpen p t slot gen => Sys2Proof.Machine.execEditOpen p t slot gen s
  | .editSet p t slot gen field presence area => Sys2Proof.Machine.execEditSet p t slot gen field presence area s
  | .editCommit p t slot gen => Sys2Proof.Machine.execEditCommit p t slot gen s
  | .editDrop p t slot gen => Sys2Proof.Machine.execEditDrop p t slot gen s
  | .classConfig p t cls source period => Sys2Proof.Machine.execClassConfig p t cls source period s
  | .classStart p t cls => Sys2Proof.Machine.execClassStart p t cls s
  | .classStop p t cls => Sys2Proof.Machine.execClassStop p t cls s
  | .classTrigger p t cls => Sys2Proof.Machine.execClassTrigger p t cls s
  | .classStatus p t cls clear => Sys2Proof.Machine.execClassStatus p t cls clear s
  | .listInsert p t cls slot gen position => Sys2Proof.Machine.execListInsert p t cls slot gen position s
  | .listRemove p t cls slot gen => Sys2Proof.Machine.execListRemove p t cls slot gen s
  | .listRead p t cls => Sys2Proof.Machine.execListRead p t cls s
  | .convertDirect p t channel gain => Sys2Proof.Machine.execConvertDirect p t channel gain s
  | .noticeFetch p t => Sys2Proof.Machine.execNoticeFetch p t s
  | .noticeWait p t timeout => Sys2Proof.Machine.execNoticeWait p t timeout s
  | .noticeAck p t slot gen => Sys2Proof.Machine.execNoticeAck p t slot gen s
  | .actionCreate p t triggers output drive budget flags => Sys2Proof.Machine.execActionCreate p t triggers output drive budget flags s
  | .actionLink p t action slot gen => Sys2Proof.Machine.execActionLink p t action slot gen s
  | .actionUnlink p t slot gen => Sys2Proof.Machine.execActionUnlink p t slot gen s
  | .actionRearm p t action budget => Sys2Proof.Machine.execActionRearm p t action budget s
  | .actionFree p t action => Sys2Proof.Machine.execActionFree p t action s
  | .actionRead p t action => Sys2Proof.Machine.execActionRead p t action s
  | .outputWrite p t channel value => Sys2Proof.Machine.execOutputWrite p t channel value s
  | .outputPin p t channel => Sys2Proof.Machine.execOutputPin p t channel s
  | .outputUnpin p t channel => Sys2Proof.Machine.execOutputUnpin p t channel s
  | .outputFallback p t channel presence value => Sys2Proof.Machine.execOutputFallback p t channel presence value s
  | .outputRead p t channel => Sys2Proof.Machine.execOutputRead p t channel s
  | .periodExpiry c => Sys2Proof.Machine.execPeriodExpiry c s
  | .xtRisingEdge line => Sys2Proof.Machine.execXtRisingEdge line s
  | .grant => Sys2Proof.Machine.execGrant s
  | .settlingElapsed => Sys2Proof.Machine.execSettlingElapsed s
  | .conversionComplete input => Sys2Proof.Machine.execConversionComplete input s
  | .claimLapse i' => Sys2Proof.Machine.execClaimLapse i' s
  | .staleExpiry i' => Sys2Proof.Machine.execStaleExpiry i' s
  | .waitTimeout p => Sys2Proof.Machine.execWaitTimeout p s
  | .requestRefusal p t kind args => Sys2Proof.Machine.execRequestRefusal p t kind args s

end Sys2Proof.Machine
end

