-- ==== Sys2Proof/Machine/Idle.lean ====
section
/-! DEFINITION. What the part does on its own while no command waits: the events that fall due are taken one at a time,
and time passes by a microsecond where none is due (log entries 3 to 5). -/

namespace Sys2Proof.Machine

namespace State

/-- The arbiter's grant and the converter's own events that are due (R73, R74, R82). DESIGN CHOICE: log
entry 7. -/
def dueConverter (s : State) : List Instr :=
  match s.frontEnd.converter with
  | .idle => if s.frontEnd.queue = [] ∧ s.lowestPosted = none then [] else [.grant]
  | .settling _ due => if due ≤ s.now then [.settlingElapsed] else []
  | .sampling j due =>
    if due ≤ s.now then [.conversionComplete (Config.analogInput j.channel s.freeIndex)] else []

/-- The class's period timer has expired (R52). -/
def periodDue (s : State) (c : ClassNo) : Bool := (s.cls c).periodTimer.any fun due => due ≤ s.now

/-- The claim on a slot's point has lapsed (R28). -/
def claimDueNow (s : State) (i : SlotNo) : Bool := (s.slot i).claim.any fun c => c.due ≤ s.now

/-- The stale timer of a slot's point has expired (R104). -/
def staleDue (s : State) (i : SlotNo) : Bool := (s.slot i).staleTimer.any fun due => due ≤ s.now

/-- The events of the part's own that are due. -/
def dueEvents (s : State) : List Instr :=
  s.dueConverter ++ (allClasses.filter s.periodDue).map Instr.periodExpiry ++
    (allSlots.filter s.claimDueNow).map Instr.claimLapse ++ (allSlots.filter s.staleDue).map Instr.staleExpiry ++
    (s.waits.filter fun w => w.due ≤ s.now).map fun w => Instr.waitTimeout w.port

/-- The event taken first of those due together: a free value picks it where there are several (R184). DESIGN CHOICE: log
entry 5. -/
def nextEvent (s : State) : Option Instr :=
  match s.dueEvents with
  | [] => none
  | [e] => some e
  | e :: es => some ((e :: es).getD (Config.dueChoice s.freeIndex % (es.length + 1)) e)

end State

/-- A step with no command waiting: one due event, or a microsecond; nothing while RSTn is asserted (R191). -/
def idle (s : State) : Host.Outcome State Fault Refusal :=
  if s.rstAsserted = true then .next s
  else
    match s.nextEvent with
    | none => .next { s with now := s.now + 1 }
    | some e => exec e { s with freeIndex := s.freeIndex + 1 }

end Sys2Proof.Machine
end

