-- ==== Sys2Proof/Safety.lean ====
section
/-! DEFINITION. The terms the claims use: when a port takes a request and what its record holds when one is answered, and
what a legal state of the SP128 is, which is the laws of the device that the chapters state, each a predicate on one
state. -/

namespace Sys2Proof

/-- The port whose transaction a command is; none for an event of the part's own or of a reset line. -/
def Instr.carrier (i : Instr) : Option Port :=
  match i with
  | .badCommandByte p _ | .frameDiscard p _ | .badRequestFrame p _ _ _ | .collect p _ | .requestRefusal p _ _ _ => some p
  | _ => (requestParts i).map Prod.fst

end Sys2Proof

namespace Sys2Proof.Machine

/-! ## A request and its answer -/

namespace State

/-- The port takes a new transaction: neither reset line holds it, the select period is not one that began before a
release, and no COLLECT is under way (R164, R191). -/
def Takes (s : State) (p : Port) : Prop :=
  s.rstAsserted = false ∧ (s.port p).prstAsserted = false ∧ (s.port p).selectIgnored = false ∧
    (s.port p).collecting = none

/-- The port's checks of the tag refuse no frame of this tag: the tag is not open, and fewer than 4 are (R167). -/
def Admits (s : State) (p : Port) (t : Tag) : Prop :=
  s.Takes p ∧ (∀ e ∈ (s.port p).openTags, e.tag ≠ t) ∧ (s.port p).openTags.length < 4

/-- The port hands a request of this tag to its owner: it admits the frame and has a session (R169). -/
def Ready (s : State) (p : Port) (t : Tag) : Prop :=
  s.Admits p t ∧ (s.port p).session = .attached

/-- The state in which a request has been accepted and answered: its tag is open and ANSWERED, its answer is the last of
the response queue, and the attention lines show what stands (R169, R170, R171, R173). -/
def answered (s : State) (p : Port) (t : Tag) (kind : Byte) (code : ResultCode) (data : List Byte) : State :=
  (s.setPort p { s.port p with
    openTags := (s.port p).openTags ++ [{ tag := t, kind := kind, place := .answered }]
    queue := (s.port p).queue ++ [{ tag := t, kind := kind, code := code, data := data }] }).updateAttention

/-- The state in which a request has been accepted and waits (R169, R170, R173). -/
def accepted (s : State) (p : Port) (t : Tag) (kind : Byte) : State :=
  (s.setPort p { s.port p with
    openTags := (s.port p).openTags ++ [{ tag := t, kind := kind, place := .waiting }] }).updateAttention

/-- The state in which the waiting request of a tag has been answered: the tag is ANSWERED and the answer is the last of
the response queue (R170, R171, R177). -/
def served (s : State) (p : Port) (t : Tag) (kind : Byte) (code : ResultCode) (data : List Byte) : State :=
  s.setPort p { s.port p with
    openTags := (s.port p).openTags.map fun e => if e.tag = t then { e with place := .answered } else e
    queue := (s.port p).queue ++ [{ tag := t, kind := kind, code := code, data := data }] }

/-- The port has a waiting request of this tag and kind, and no second open tag of the number (R163, R170). -/
def Waits (s : State) (p : Port) (t : Tag) (kind : Byte) : Prop :=
  { tag := t, kind := kind, place := .waiting } ∈ (s.port p).openTags ∧
    ((s.port p).openTags.map OpenTag.tag).Nodup

/-- Every point record given by its slot. -/
def withSlots (s : State) (f : SlotNo → PointSlot) : State := { s with slots := Vector.ofFn f }

/-- Every notice given by its slot. -/
def withNotices (s : State) (f : SlotNo → Option Notice) : State := { s with notices := Vector.ofFn f }

/-- Every output channel given by its number. -/
def withOutputs (s : State) (f : OutputNo → OutputChannel) : State := { s with outputs := Vector.ofFn f }

/-- Every block holds the values that device reset gives it, and the reset lines have these levels (R26, R45, R86, R133,
R134, R151, R163, R183, R190). -/
def AtReset (t : State) (rst h l : Bool) : Prop :=
  (∀ i, (t.slot i).state = .free ∧ (t.slot i).gen = 0 ∧ (t.slot i).key = 0 ∧ (t.slot i).link = none ∧
    (t.slot i).raw = 0 ∧ (t.slot i).value = 0 ∧ (t.slot i).quality = .unsampled ∧
    (t.slot i).condition = .normal ∧ (t.slot i).pendingCandidate = none ∧ (t.slot i).pendingCount = 0 ∧
    (t.slot i).sampleSeq = 0 ∧ (t.slot i).staleTimer = none ∧ (t.slot i).claim = none ∧
    (t.slot i).cfg = {
      channel := 0, gain := .g1, scale := none, lolo := none, lo := none, hi := none, hihi := none, deadband := 0
      confirm := 1, staleInterval := none, severity := 0, policy := .latched, route := .either
      notifyClear := false, notifyQuality := false }) ∧
  t.keyMap = [] ∧
  (∀ c, t.cls c = {
    source := .onRequest, period := 10000, state := .stopped, list := [], cursor := 0, job := none
    removedMark := false, passSeq := 0, overruns := 0, periodTimer := none }) ∧
  t.frontEnd = { converter := .idle, openSel := none, queue := [] } ∧
  (∀ i, t.notice i = none) ∧ t.raiseSeq = 0 ∧ t.waits = [] ∧
  (∀ a, t.action a = {
    state := .free, triggers := ⟨false, false, false, false⟩, output := 0, drive := 0
    budget := 0, suppress := false, notifySpent := false, restore := false, linkCount := 0 }) ∧
  (∀ o, t.output o = { value := 0, lastWriter := .reset, saved := none, pin := none, fallback := none }) ∧
  (∀ p, t.port p = {
    session := .detached, timeoutSteps := 50, threshold := 0, openTags := [], queue := []
    refusals := [], frameErrors := 0, dropped := 0, attention := false
    prstAsserted := if p = .H then h else l, selectIgnored := false, collecting := none, clockedOut := [] }) ∧
  t.rstAsserted = rst

/-- What the end of a port's session leaves in every block, before the other port's wait is served from the notices it
returned (R43, R85, R131, R132, R160, R181). -/
def afterSessionEnd (s : State) (p : Port) : State :=
  ((((s.setPort p { s.port p with session := .detached, openTags := [], queue := [], refusals := [] }).setFrontEnd {
      s.frontEnd with
      queue := s.frontEnd.queue.filter fun j => j.port != p
      converter :=
        match s.frontEnd.converter with
        | .settling (.direct j ch g) due =>
          .settling (.direct (if j.port = p then { j with disposition := .discard } else j) ch g) due
        | .sampling (.direct j ch g) due =>
          .sampling (.direct (if j.port = p then { j with disposition := .discard } else j) ch g) due
        | .settling (.scan _ _) _ | .sampling (.scan _ _) _ | .idle => s.frontEnd.converter }).setWaits
    (s.waits.filter fun w => w.port != p)).withSlots fun i =>
      if (s.slot i).claim.map Claim.owner = some p then { s.slot i with claim := none } else s.slot i).withNotices (fun i =>
        (s.notice i).map fun n =>
          if n.state = .delivered p then
            match n.followOn with
            | none => { n with state := .pending }
            | some f => { n with
                state := .pending, followOn := none, cause := f.cause, condition := f.condition
                severity := max n.severity f.severity, count := min 255 (n.count + 1) }
          else n) |>.withOutputs fun o =>
      if (s.output o).pin = some p then
        match (s.output o).fallback with
        | none => { s.output o with pin := none }
        | some v => { s.output o with pin := none, value := v, lastWriter := .fallback, saved := none }
      else s.output o

/-- The notice is one that NOTICE.FETCH may choose for the port: it is deliverable, no deliverable notice has a higher
severity, and none of its severity has a lower raise sequence (R122). -/
def IsBest (s : State) (p : Port) (i : SlotNo) (n : Notice) : Prop :=
  s.deliverable p i = some n ∧ ∀ j m, s.deliverable p j = some m →
    m.severity < n.severity ∨ (m.severity = n.severity ∧ n.seq.toNat ≤ m.seq.toNat)

/-- What a trigger makes of a class whose record is `k`, in the state `s` for the points of its list: a pass starts, an
overrun is counted, or nothing happens (R55, R56, R59). -/
def Triggered (s : State) (k r : ScanClass) : Prop :=
  match k.state with
  | .waiting =>
    match k.list with
    | [] => r = { k with cursor := 0, passSeq := k.passSeq + 1 }
    | e :: _ => r = { k with
        state := .running, cursor := 0, passSeq := k.passSeq + 1
        job := some {
          phase := .posted
          job := {
            slot := e.slot, gen := e.gen
            channel := (s.slot e.slot).cfg.channel, gain := (s.slot e.slot).cfg.gain } } }
  | .running => r = { k with overruns := min 255 (k.overruns + 1) }
  | .stopping | .stopped => r = k

/-- The application of a sample to a slot's point leaves `u`: its live fields are the sample's, its configuration, key,
claim and generation are as they were, and of the other points' records at most the action link of a spent action is
gone (R6, R89, R90, R146). -/
def AppliesTo (s : State) (i : SlotNo) (raw : RawReading) (u : State) : Prop :=
  (u.slot i).raw = raw ∧ (u.slot i).value = scaleValue (s.slot i).cfg.scale raw ∧
    (u.slot i).quality = (if raw = 0 ∨ raw = 16383 then .clipped else .good) ∧
    (u.slot i).sampleSeq = (s.slot i).sampleSeq + 1 ∧ (u.slot i).cfg = (s.slot i).cfg ∧
    (u.slot i).state = (s.slot i).state ∧ (u.slot i).gen = (s.slot i).gen ∧ (u.slot i).key = (s.slot i).key ∧
    (u.slot i).claim = (s.slot i).claim ∧
    ((u.slot i).condition = (s.slot i).condition ∨
      (u.slot i).condition = candidate (s.slot i).cfg (s.slot i).condition (scaleValue (s.slot i).cfg.scale raw)) ∧
    (∀ j, j ≠ i → { u.slot j with link := (s.slot j).link } = s.slot j) ∧ u.keyMap = s.keyMap

end State

/-! ## The laws of the device -/

/-- R3: the key map relates each DEFINED point's key to its slot and nothing else, a key is not 0, and no two DEFINED
points hold one key. -/
def KeyLaw (s : State) : Prop :=
  (∀ e ∈ s.keyMap, (s.slot e.slot).state = .defined ∧ (s.slot e.slot).key = e.key) ∧
  (∀ i, (s.slot i).state = .defined → (s.slot i).key ≠ 0 ∧ s.keySlot (s.slot i).key = some i)

/-- R1, R22: a FREE slot's record holds its reset values but for the generation, and the slot has no notice. -/
def FreeSlotLaw (s : State) : Prop :=
  ∀ i, (s.slot i).state = .free → s.slot i = PointSlot.freed (s.slot i).gen ∧ s.notice i = none

/-- R27: a claim stands on a DEFINED point and its owner is ATTACHED. -/
def ClaimLaw (s : State) : Prop :=
  ∀ i c, (s.slot i).claim = some c → (s.slot i).state = .defined ∧ s.attached c.owner = true

/-- R5: the fields of a configuration that the types do not bound are within their ranges. -/
def PointConfig.InRange (c : PointConfig) : Prop :=
  (1 ≤ c.confirm ∧ c.confirm ≤ 8) ∧ ∀ ms ∈ c.staleInterval, 10 ≤ ms ∧ ms ≤ 60000

/-- R5, R9, R27: every configuration is in range, and a running one passes the limit check. -/
def ConfigLaw (s : State) : Prop :=
  ∀ i, (s.slot i).cfg.InRange ∧ limitCheck (s.slot i).cfg = true ∧
    ∀ c ∈ (s.slot i).claim, c.staged.InRange

/-- R97: the pending count is 0 exactly when the pending candidate is absent, and is otherwise less than confirm. -/
def PendingLaw (s : State) : Prop :=
  ∀ i, ((s.slot i).pendingCount = 0 ↔ (s.slot i).pendingCandidate = none) ∧
    ((s.slot i).pendingCandidate ≠ none → (s.slot i).pendingCount < (s.slot i).cfg.confirm)

/-- R94: the limit that an abnormal condition names is present. -/
def ConditionLaw (s : State) : Prop :=
  ∀ i, (s.slot i).condition ≠ .normal → (limitOf (s.slot i).cfg (s.slot i).condition).isSome = true

/-- R47: every entry names a DEFINED point with its generation, and a point is in at most one entry of all the lists. -/
def ListLaw (s : State) : Prop :=
  (∀ c, ∀ e ∈ (s.cls c).list, s.names e.slot e.gen = true) ∧
  (∀ c d (k m : Nat) e f, (s.cls c).list[k]? = some e → (s.cls d).list[m]? = some f → e.slot = f.slot →
    c = d ∧ k = m)

/-- R45, R47, R56, R57: a class's state, cursor, job and mark agree. -/
def ScanClass.Legal (k : ScanClass) : Prop :=
  k.list.length ≤ Config.listCapacity ∧ k.cursor ≤ k.list.length ∧ k.overruns ≤ 255 ∧
  match k.state, k.job with
  | .stopped, none | .waiting, none => k.removedMark = false
  | .running, some j =>
    match j.phase with
    | .posted => k.removedMark = false ∧
        k.list[k.cursor]? = some { slot := j.job.slot, gen := j.job.gen }
    | .converting => k.removedMark = true ∨
        k.list[k.cursor]? = some { slot := j.job.slot, gen := j.job.gen }
  | .stopping, some j => j.phase = .converting ∧
      (k.removedMark = true ∨ k.list[k.cursor]? = some { slot := j.job.slot, gen := j.job.gen })
  | _, _ => False

/-- The job the converter holds, if it holds one (R71). -/
def Converter.held : Converter → Option HeldJob
  | .idle => none
  | .settling j _ => some j
  | .sampling j _ => some j

/-- R47, R57: the lists are sound, every class is legal, and a class's job is CONVERTING exactly when the converter holds
it. -/
def SchedulerLaw (s : State) : Prop :=
  ListLaw s ∧ (∀ c, (s.cls c).Legal) ∧
  ∀ c j, (s.cls c).job = some { job := j, phase := .converting } ↔
    s.frontEnd.converter.held = some (.scan c j)

/-- R50, R104: a stale timer runs only on a point that has an interval and is listed in a class that is not STOPPED, and
never has more than the interval left. -/
def StaleTimerLaw (s : State) : Prop :=
  ∀ i due, (s.slot i).staleTimer = some due →
    s.listedActive i = true ∧ ∃ ms, (s.slot i).cfg.staleInterval = some ms ∧ due ≤ s.now + ms * 1000

/-- R45, R52: the period timer runs exactly on a PERIODIC class that is not STOPPED. -/
def PeriodTimerLaw (s : State) : Prop :=
  ∀ c, (s.cls c).periodTimer.isSome = true ↔ (s.cls c).source = .periodic ∧ (s.cls c).state ≠ .stopped

/-- R109, R110, R122: a notice names a DEFINED point with its generation, only a DELIVERED notice has a follow-on, and
the port a notice is delivered to is ATTACHED. -/
def NoticeLaw (s : State) : Prop :=
  ∀ i n, s.notice i = some n → s.names i n.gen = true ∧ (1 ≤ n.count ∧ n.count ≤ 255) ∧
    match n.state with
    | .pending => n.followOn = none
    | .delivered p => s.attached p = true

/-- The number of points linked to an action (R135). -/
def State.linkedPoints (s : State) (a : ActionNo) : Nat := allSlots.countP fun i => (s.slot i).link == some a

/-- R134, R135: an action's link count is the number of points linked to it, only an ARMED action has links or a
budget, and an ARMED action has 1 to 255 of it. -/
def ActionLaw (s : State) : Prop :=
  ∀ a, (s.action a).linkCount = s.linkedPoints a ∧
    match (s.action a).state with
    | .armed => 1 ≤ (s.action a).budget ∧ (s.action a).budget ≤ 255
    | .free | .spent => (s.action a).linkCount = 0 ∧ (s.action a).budget = 0

/-- R151: a pin owner is ATTACHED. -/
def PinLaw (s : State) : Prop := ∀ o p, (s.output o).pin = some p → s.attached p = true

/-- R172: what a COLLECT under way is clocking out is still the oldest refusal or the head of the queue, and what is left
of it is an end of its frame. -/
def PortRec.CollectLegal (r : PortRec) : Prop :=
  match r.collecting with
  | some (.frame (some (refusal, a)) rest) =>
    (if refusal then r.refusals else r.queue).head? = some a ∧ rest ≠ [] ∧ rest <:+ responseFrame refusal a
  | some (.frame none rest) => rest = [0x00]
  | some (.summary rest) => rest.length ≤ 2
  | some .ignored | none => True

/-- R163, R171: at most four open tags, all distinct; each answer in the queue has an ANSWERED tag and each such tag one
answer; at most two refusals; the counts and the claim timeout in range; R172: the COLLECT under way is a legal one. -/
def PortRec.Legal (r : PortRec) : Prop :=
  r.openTags.length ≤ Config.tagCapacity ∧ (r.openTags.map OpenTag.tag).Nodup ∧
  (r.queue.map Answer.tag).Nodup ∧
  (∀ t, t ∈ r.queue.map Answer.tag ↔ ∃ e ∈ r.openTags, e.tag = t ∧ e.place = .answered) ∧
  r.refusals.length ≤ Config.refusalCapacity ∧ r.frameErrors ≤ 255 ∧ r.dropped ≤ 255 ∧
  1 ≤ r.timeoutSteps ∧ r.timeoutSteps ≤ 255 ∧ r.CollectLegal

/-- R163: both port records are legal. -/
def PortLaw (s : State) : Prop := s.portH.Legal ∧ s.portL.Legal

/-- The direct job of disposition ANSWER that the converter holds, if it holds one. -/
def State.convertingJob (s : State) : List DirectJob :=
  match s.frontEnd.converter.held with
  | some (.direct j _ _) => if j.disposition = .answer then [j] else []
  | _ => []

/-- The waiting requests: the port and tag of each direct job of disposition ANSWER and of each waiting NOTICE.WAIT
(R177). -/
def State.waitingRequests (s : State) : List (Port × Tag) :=
  (s.frontEnd.queue ++ s.convertingJob).map (fun j => (j.port, j.tag)) ++ s.waits.map fun w => (w.port, w.tag)

/-- R76, R124, R177: every queued job is of disposition ANSWER; the waiting requests are distinct and are exactly the
WAITING tags; each belongs to an ATTACHED port, and a port has one NOTICE.WAIT at most. -/
def WaitingLaw (s : State) : Prop :=
  (∀ j ∈ s.frontEnd.queue, j.disposition = .answer) ∧
  s.waitingRequests.Nodup ∧
  (∀ p t, (p, t) ∈ s.waitingRequests ↔ ∃ e ∈ (s.port p).openTags, e.tag = t ∧ e.place = .waiting) ∧
  (∀ x ∈ s.waitingRequests, s.attached x.1 = true) ∧
  (s.waits.map WaitRec.port).Nodup

/-- R121: no notice is deliverable to a port whose NOTICE.WAIT is waiting. -/
def ServedLaw (s : State) : Prop := ∀ w ∈ s.waits, s.anyDeliverable w.port = false

/-- R173: each attention line shows what stands. -/
def AttentionLaw (s : State) : Prop :=
  s.portH.attention = s.attentionNeeded .H ∧ s.portL.attention = s.attentionNeeded .L

/-- R182, R191: a port whose PRSTn is asserted is DETACHED with no traffic, and while RSTn is asserted the part holds its
reset values. -/
def HeldLaw (s : State) : Prop :=
  (∀ p, (s.port p).prstAsserted = true → (s.port p).session = .detached ∧ (s.port p).openTags = [] ∧
    (s.port p).queue = [] ∧ (s.port p).refusals = [] ∧ (s.port p).frameErrors = 0 ∧ (s.port p).dropped = 0 ∧
    (s.port p).collecting = none) ∧
  (s.rstAsserted = true → s = s.afterReset true s.portH.prstAsserted s.portL.prstAsserted)

end Sys2Proof.Machine
end

