-- ==== Sys2Proof/Certificates/Slice0/Obligations.lean ====
section
/-! DEFINITION. The statements for the provers. A request's completion is an equation: under hypotheses on the state and
the operands alone, `exec` answers the next state that the rules give, and every part of the state that the equation
does not name is as it was. -/

open Sys2Proof Sys2Proof.Machine

/-! ## The whole part -/

/-- A step with a command waiting is that command's meaning on the state with the queue's rest. -/
def Obligations.StepRunsTheFrontCommand : Prop :=
  ∀ (s : State) (c : Instr) (rest : List Instr),
    step { s with pending := c :: rest } = exec c { s with pending := rest }

/-- Every command has an effect: `exec` answers a next state for every command in every state, and never touches the
queue. -/
def Obligations.EveryCommandCompletes : Prop :=
  ∀ (s : State) (c : Instr), ∃ t, exec c s = .next t ∧ t.pending = s.pending

/-- R191: while RSTn is asserted nothing but the reset lines and power-up changes anything, and time does not pass. R164,
R191: a port takes no transaction while its PRSTn is asserted; and of the transactions it is asked for after a
release, the one whose select began before it is ignored, with nothing counted and nothing driven, however many parts a
COLLECT in it has (log entries 8 and 11). -/
def Obligations.HeldLinesTakeNothing : Prop :=
  (∀ s : State, s.rstAsserted = true →
     (∀ c : Instr, (∀ r h l, c ≠ .powerUp r h l) → c ≠ .deviceReset → (∀ a b, c ≠ .rstnRelease a b) →
       (∀ p, c ≠ .prstnAssert p) → (∀ p b, c ≠ .prstnRelease p b) → exec c s = .next s) ∧
     (s.pending = [] → step s = .next s)) ∧
  (∀ (s : State) (p : Port) (c : Instr), c.carrier = some p → s.rstAsserted = false →
     ((s.port p).prstAsserted = true → exec c s = .next s) ∧
     ((s.port p).prstAsserted = false → (s.port p).selectIgnored = true → (∀ n, c ≠ .collect p ⟨n, true⟩) →
       exec c s = .next (s.setPort p { s.port p with selectIgnored := false, collecting := none }))) ∧
  (∀ (s : State) (p : Port) (n : Nat) (more : Bool), s.rstAsserted = false → (s.port p).prstAsserted = false →
     ((s.port p).selectIgnored = true → exec (.collect p ⟨n, true⟩) s = .next
       (s.setPort p { s.port p with selectIgnored := false, collecting := some .ignored })) ∧
     ((s.port p).selectIgnored = false → (s.port p).collecting = some .ignored → exec (.collect p ⟨n, more⟩) s = .next
       (s.setPort p { s.port p with collecting := if more then some .ignored else none }).updateAttention))

/-! ## Resets (R26, R44, R45, R86, R133, R134, R151, R163, R182, R183, R190, R191) -/

/-- R190, R183: power-up and device reset give every block its reset values and lose every request, answer, claim, notice
and job. The model's own queue, clock and counter stay, and a PRSTn line keeps its level through a device reset.
R191, R182: a release of RSTn or of a PRSTn changes the line, and whether the select period under way is one to
ignore, and nothing else; a line that is not asserted is not released. -/
def Obligations.ResetLinesSetTheResetValues : Prop :=
  (∀ (s : State) (rst h l : Bool),
     (∃ t, exec (.powerUp rst h l) s = .next t ∧ t.AtReset rst h l ∧
       t.pending = s.pending ∧ t.now = s.now ∧ t.freeIndex = s.freeIndex) ∧
     (∃ t, exec .deviceReset s = .next t ∧ t.AtReset true s.portH.prstAsserted s.portL.prstAsserted ∧
       t.pending = s.pending ∧ t.now = s.now ∧ t.freeIndex = s.freeIndex)) ∧
  (∀ (s : State) (a b : Bool) (p : Port),
     (s.rstAsserted = true → exec (.rstnRelease a b) s = .next
       (({ s with rstAsserted := false }.setPort .H { s.portH with selectIgnored := a }).setPort .L
         { s.portL with selectIgnored := b })) ∧
     ((s.port p).prstAsserted = true → exec (.prstnRelease p a) s = .next
       (s.setPort p { s.port p with prstAsserted := false, selectIgnored := a && !s.rstAsserted })) ∧
     (s.rstAsserted = false → exec (.rstnRelease a b) s = .next s) ∧
     ((s.port p).prstAsserted = false → exec (.prstnRelease p a) s = .next s))

/-! ## Transactions and frames (R164 to R169, R172, R185, R186) -/

/-- R164, R165, R166: a command byte that names no transaction, and a SUBMIT whose bytes are too few, whose length is out
of range, whose sum is not 0 or whose tag is above 15, add one to the frame error count, up to 255, and do nothing
else. -/
def Obligations.BadBytesOnlyCount : Prop :=
  ∀ (s : State) (p : Port), s.Takes p →
    (∀ b : Byte, b ≠ 0x5A → b ≠ 0xC3 → exec (.badCommandByte p b) s = .next
      (s.setPort p { s.port p with frameErrors := min 255 ((s.port p).frameErrors + 1) }).updateAttention) ∧
    (∀ bytes : List Byte,
      ((bytes.headD 0).toNat < 4 ∨ 64 < (bytes.headD 0).toNat ∨ bytes.length < (bytes.headD 0).toNat ∨
        ((bytes.take (bytes.headD 0).toNat).map BitVec.toNat).sum % 256 ≠ 0 ∨ 15 < (bytes.getD 1 0).toNat) →
      exec (.frameDiscard p bytes) s = .next
        (s.setPort p { s.port p with frameErrors := min 255 ((s.port p).frameErrors + 1) }).updateAttention)

/-- R167, R168: a frame whose tag is open is refused TAG_IN_USE, and one that finds 4 other tags open is refused BUSY,
whatever its kind and before it is decoded. The refusal, with the tag and kind byte as they came, goes behind those held,
or is dropped and counted where two are held, and nothing else happens. -/
def Obligations.RefusalsFillTheSlots : Prop :=
  ∀ (s : State) (p : Port) (t : Tag) (kind : Byte) (c : Instr), s.Takes p →
    ((∃ args, c = .requestRefusal p t kind args) ∨ (∃ args, c = .badRequestFrame p t kind args) ∨
      (∃ k args, requestParts c = some (p, t, k, args) ∧ k.code = kind)) →
    ((∃ e ∈ (s.port p).openTags, e.tag = t) ∨ 4 ≤ (s.port p).openTags.length) →
    exec c s = .next
      (if (s.port p).refusals.length < 2 then
        s.setPort p { s.port p with
          refusals := (s.port p).refusals ++ [{
            tag := t, kind := kind, data := []
            code := if (s.port p).openTags.any (fun e => e.tag == t) then .tagInUse else .busy }] }
      else s.setPort p { s.port p with dropped := min 255 ((s.port p).dropped + 1) }).updateAttention

/-- R169 step 1: an admitted frame whose kind byte names no kind, or whose arguments are not the number the kind carries,
is answered BAD_REQUEST, with or without a session. R169 step 2: on a DETACHED port every request but PORT.ATTACH is
answered NOT_ATTACHED, and nothing but the port's tags and queue changes. -/
def Obligations.PortAnswersBeforeTheOwner : Prop :=
  (∀ (s : State) (p : Port) (t : Tag) (kind : Byte) (args : List Byte), s.Admits p t →
     (∀ k : Kind, k.code = kind → args.length ≠ k.argCount) →
     exec (.badRequestFrame p t kind args) s = .next (s.answered p t kind .badRequest [])) ∧
  (∀ (s : State) (p : Port) (t : Tag) (k : Kind) (args : List Byte) (c : Instr),
     requestParts c = some (p, t, k, args) → k ≠ .portAttach → s.Admits p t → (s.port p).session = .detached →
     exec c s = .next (s.answered p t k.code .notAttached []))

/-- R4: every request that names a point, with its other operands in range, is answered BAD_ARGUMENT for a slot above 127,
and STALE_REF where the slot is FREE or DEFINED with another generation; it changes nothing. -/
def Obligations.ReferencesAreChecked : Prop :=
  ∀ (s : State) (p : Port) (t : Tag) (slot gen : Byte), s.Ready p t →
    ∀ (field presence : Byte) (area : BitVec 64), fieldEdit field presence area ≠ none →
    ∀ (k : ClassNo) (a : ActionNo) (position : Byte), position.toNat ≤ 48 →
    ∀ c ∈ [Instr.pointRead p t slot gen, .pointRetire p t slot gen, .pointSample p t slot gen,
        .editOpen p t slot gen, .editSet p t slot gen field presence area, .editCommit p t slot gen,
        .editDrop p t slot gen, .listInsert p t (byte k.val) slot gen position, .listRemove p t (byte k.val) slot gen,
        .noticeAck p t slot gen, .actionLink p t (byte a.val) slot gen, .actionUnlink p t slot gen],
      ∃ kind args, requestParts c = some (p, t, kind, args) ∧
        (128 ≤ slot.toNat → exec c s = .next (s.answered p t kind.code .badArgument [])) ∧
        (∀ i : SlotNo, slot = byte i.val → ((s.slot i).state = .free ∨ (s.slot i).gen ≠ gen) →
          exec c s = .next (s.answered p t kind.code .staleRef []))

/-- R172, R170, R185, R186: a COLLECT sends the oldest refusal, else the answer at the head of the queue, else the empty
indication, then the two summary bytes, then 0xFF. The choice is made with the command byte; an answer is removed, and
its tag closed, when its last byte has been clocked, however many parts it is clocked in and whatever happens between
them; the summary is taken as it stands then. A COLLECT in parts with nothing between them is the COLLECT in one. R164:
another transaction of the port ends the COLLECT under way, with nothing removed. The parts are log entry 8's, and the
bytes driven are kept as log entry 12 says. -/
def Obligations.CollectSendsAndRemoves : Prop :=
  (∀ (s : State) (p : Port) (n : Nat), s.Takes p →
    ((s.port p).refusals = [] → (s.port p).queue = [] → exec (.collect p ⟨n, false⟩) s = .next
      (s.setPort p { s.port p with
        clockedOut := ([0x00, byte (s.deliverableCount p), byte (s.port p).openTags.length] ++
          List.replicate n 0xFF).take n }).updateAttention) ∧
    (∀ a rest, (s.port p).refusals = a :: rest → exec (.collect p ⟨n, false⟩) s = .next
      (if n < a.data.length + 5 then
        s.setPort p { s.port p with clockedOut := (responseFrame true a).take n }
      else s.setPort p { s.port p with
        refusals := rest
        clockedOut := (responseFrame true a ++ [byte (s.deliverableCount p), byte (s.port p).openTags.length] ++
          List.replicate n 0xFF).take n }).updateAttention) ∧
    (∀ a rest, (s.port p).refusals = [] → (s.port p).queue = a :: rest → exec (.collect p ⟨n, false⟩) s = .next
      (if n < a.data.length + 5 then
        s.setPort p { s.port p with clockedOut := (responseFrame false a).take n }
      else s.setPort p { s.port p with
        queue := rest
        openTags := (s.port p).openTags.filter fun e => e.tag != a.tag
        clockedOut := (responseFrame false a ++ [byte (s.deliverableCount p),
          byte ((s.port p).openTags.filter fun e : OpenTag => e.tag != a.tag).length] ++
          List.replicate n 0xFF).take n }).updateAttention) ∧
    (∀ (m : Nat) (more : Bool), ∃ t, exec (.collect p ⟨n, true⟩) s = .next t ∧
      exec (.collect p ⟨m, more⟩) t = exec (.collect p ⟨n + m, more⟩) s) ∧
    (let begun (chosen : Option (Bool × Answer)) (bytes : List Byte) : Prop :=
       exec (.collect p ⟨0, true⟩) s = .next (s.setPort p { s.port p with
         clockedOut := [], collecting := some (.frame chosen bytes) }).updateAttention
     (∀ a rest, (s.port p).refusals = a :: rest → begun (some (true, a)) (responseFrame true a)) ∧
     (∀ a rest, (s.port p).refusals = [] → (s.port p).queue = a :: rest →
       begun (some (false, a)) (responseFrame false a)) ∧
     ((s.port p).refusals = [] → (s.port p).queue = [] → begun none [0x00]))) ∧
  (∀ (s : State) (p : Port) (n : Nat) (more : Bool), s.rstAsserted = false → (s.port p).prstAsserted = false →
    (s.port p).selectIgnored = false →
    let kept (phase : CollectPhase) : Option CollectPhase := if more then some phase else none
    let sent (bytes : List Byte) : List Byte := (s.port p).clockedOut ++ (bytes ++ List.replicate n 0xFF).take n
    (∀ chosen rest, (s.port p).collecting = some (.frame chosen rest) → n < rest.length →
      exec (.collect p ⟨n, more⟩) s = .next (s.setPort p { s.port p with
        clockedOut := (s.port p).clockedOut ++ rest.take n
        collecting := kept (.frame chosen (rest.drop n)) }).updateAttention) ∧
    (∀ rest, (s.port p).collecting = some (.frame none rest) → rest.length ≤ n →
      let two := [byte (s.deliverableCount p), byte (s.port p).openTags.length]
      exec (.collect p ⟨n, more⟩) s = .next (s.setPort p { s.port p with
        clockedOut := sent (rest ++ two)
        collecting := kept (.summary (two.drop (n - rest.length))) }).updateAttention) ∧
    (∀ a rest, (s.port p).collecting = some (.frame (some (true, a)) rest) → rest.length ≤ n →
      let two := [byte (s.deliverableCount p), byte (s.port p).openTags.length]
      exec (.collect p ⟨n, more⟩) s = .next (s.setPort p { s.port p with
        refusals := (s.port p).refusals.tail
        clockedOut := sent (rest ++ two)
        collecting := kept (.summary (two.drop (n - rest.length))) }).updateAttention) ∧
    (∀ a rest, (s.port p).collecting = some (.frame (some (false, a)) rest) → rest.length ≤ n →
      let left := (s.port p).openTags.filter fun e : OpenTag => e.tag != a.tag
      let two := [byte (s.deliverableCount p), byte left.length]
      exec (.collect p ⟨n, more⟩) s = .next (s.setPort p { s.port p with
        queue := (s.port p).queue.tail
        openTags := left
        clockedOut := sent (rest ++ two)
        collecting := kept (.summary (two.drop (n - rest.length))) }).updateAttention) ∧
    (∀ rest, (s.port p).collecting = some (.summary rest) →
      exec (.collect p ⟨n, more⟩) s = .next (s.setPort p { s.port p with
        clockedOut := sent rest, collecting := kept (.summary (rest.drop n)) }).updateAttention) ∧
    (∀ c : Instr, c.carrier = some p → (∀ part, c ≠ .collect p part) →
      exec c s = exec c (s.setPort p { s.port p with collecting := none })))

/-- R185, R186: a response frame's length is its first byte, its bytes sum to 0 modulo 256, and its status byte is the
result code with the refusal mark on top; a quantity of two or four bytes goes most significant byte first. R186, R189:
every result and every enumeration is sent as its code, a set of triggers or flags with one bit for each and the other
bits zero. -/
def Obligations.ResponseFramesAreWhole : Prop :=
  (∀ (refusal : Bool) (a : Answer), a.data.length ≤ 97 →
    (responseFrame refusal a).length = a.data.length + 5 ∧
    ((responseFrame refusal a).headD 0).toNat = a.data.length + 5 ∧
    ((responseFrame refusal a).map BitVec.toNat).sum % 256 = 0 ∧
    (∀ d, ((responseFrame refusal a).getD 3 d).toNat = a.code.code.toNat + if refusal then 128 else 0) ∧
    (responseFrame refusal a).tail.take 2 = [byte a.tag.val, a.kind]) ∧
  (∀ n : Nat, (byte n).toNat = n % 256) ∧
  (∀ w : Word16, bytes16 w = [byte (w.toNat / 256), byte w.toNat]) ∧
  (∀ w : Word32, bytes32 w = [byte (w.toNat / 16777216), byte (w.toNat / 65536), byte (w.toNat / 256), byte w.toNat]) ∧
  [ResultCode.ok, .none, .busy, .tagInUse, .notAttached, .alreadyAttached, .badRequest, .badArgument, .staleRef,
    .notFound, .keyInUse, .tableFull, .claimed, .noClaim, .invalidLimits, .alreadyListed, .notListed, .listFull,
    .classActive, .classStopped, .linked, .notLinked, .actionNotArmed, .inUse, .noFreeAction, .pinned, .notPinned,
    .notDelivered, .cancelled, .notOutstanding].map ResultCode.code = (List.range 30).map byte ∧
  [Gain.g1, .g4, .g16, .g64].map Gain.code = [0, 1, 2, 3] ∧
  [Condition.normal, .lo, .lolo, .hi, .hihi].map Condition.code = [0, 1, 2, 3, 4] ∧
  [Quality.unsampled, .good, .clipped, .stale].map Quality.code = [0, 1, 2, 3] ∧
  [Policy.latched, .follow].map Policy.code = [0, 1] ∧ [Route.h, .l, .either].map Route.code = [0, 1, 2] ∧
  [none, some Port.H, some Port.L].map portCode = [0, 1, 2] ∧
  [Session.detached, .attached].map Session.code = [0, 1] ∧
  [TriggerSource.periodic, .ext0, .ext1, .onRequest].map TriggerSource.code = [0, 1, 2, 3] ∧
  [ClassState.stopped, .waiting, .running, .stopping].map ClassState.code = [0, 1, 2, 3] ∧
  [Cause.entered, .cleared, .stale, .clipped, .actionSpent, .actionBlocked].map Cause.code = [0, 1, 2, 3, 4, 5] ∧
  [ActionState.free, .armed, .spent].map ActionState.code = [0, 1, 2] ∧ [false, true].map yesNoByte = [0, 1] ∧
  (∀ j : ScanJob, (none :: [JobPhase.posted, .converting].map fun f => some { job := j, phase := f }).map currentJobBytes =
    [[0, 0, 0], [1, byte j.slot.val, j.gen], [2, byte j.slot.val, j.gen]]) ∧
  [TriggerOutcome.started, .overrun, .ignored].map TriggerOutcome.code = [0, 1, 2] ∧
  (∀ n : Notice, (none :: [NoticeState.pending, .delivered .H, .delivered .L].map fun d => some { n with state := d }).map
    noticeStateCode = [0, 1, 2, 3]) ∧
  (∀ (r : TriggerSet) (k : Nat), r.code.getLsbD k = [r.lo, r.lolo, r.hi, r.hihi].getD k false) ∧
  (∀ (r : ActionRec) (k : Nat), r.flagsCode.getLsbD k = [r.suppress, r.notifySpent, r.restore].getD k false) ∧
  (∀ (a : ActionNo) (i : SlotNo), [LastWriter.reset, .port .H, .port .L, .action a i, .restore, .fallback].map
    LastWriter.bytes = [[0, 0, 0], [1, 0, 0], [2, 0, 0], [3, byte a.val, byte i.val], [4, 0, 0], [5, 0, 0]])

/-! ## Sessions (R120, R163, R174 to R181) -/

/-- R174: PORT.ATTACH on a DETACHED port opens the session with the claim timeout and threshold given, 0 and 0xFF asking
for 500 ms and 0; an ATTACHED port answers ALREADY_ATTACHED, and a threshold that is neither 0–7 nor the default
BAD_ARGUMENT. R120, R175, R176: PORT.SET replaces the claim timeout and the threshold, leaves every claim's expiry
running, and serves a waiting NOTICE.WAIT before its own OK; PORT.STATUS shows the port's record, its own tag among
the open ones, and clears the two counts where it is asked to. -/
def Obligations.AttachSetAndStatusOfThePort : Prop :=
  (∀ (s : State) (p : Port) (t : Tag) (timeout threshold : Byte), s.Admits p t →
     (8 ≤ threshold.toNat → threshold ≠ 0xFF → exec (.portAttach p t timeout threshold) s = .next
       (s.answered p t 0x01 .badArgument [])) ∧
     (threshold.toNat < 8 ∨ threshold = 0xFF → (s.port p).session = .attached →
       exec (.portAttach p t timeout threshold) s = .next (s.answered p t 0x01 .alreadyAttached [])) ∧
     (threshold.toNat < 8 ∨ threshold = 0xFF → (s.port p).session = .detached →
       exec (.portAttach p t timeout threshold) s = .next
         ((s.setPort p { s.port p with
           session := .attached
           timeoutSteps := if timeout = 0 then 50 else timeout.toNat
           threshold := Fin.ofNat 8 (if threshold = 0xFF then 0 else threshold.toNat) }).answered p t 0x01 .ok []))) ∧
  (∀ (s : State) (p : Port) (t : Tag) (timeout threshold clear : Byte), s.Ready p t →
     (8 ≤ threshold.toNat → threshold ≠ 0xFF → exec (.portSet p t timeout threshold) s = .next
       (s.answered p t 0x02 .badArgument [])) ∧
     (threshold.toNat < 8 ∨ threshold = 0xFF → WaitingLaw s → exec (.portSet p t timeout threshold) s = .next
       ((s.setPort p { s.port p with
         timeoutSteps := if timeout = 0 then 50 else timeout.toNat
         threshold := Fin.ofNat 8 (if threshold = 0xFF then 0 else threshold.toNat) }).serveWaits.answered p t 0x02
           .ok [])) ∧
     (2 ≤ clear.toNat → exec (.portStatus p t clear) s = .next (s.answered p t 0x03 .badArgument [])) ∧
     (clear.toNat ≤ 1 → exec (.portStatus p t clear) s = .next
       ((s.setPort p { s.port p with
         frameErrors := if clear = 1 then 0 else (s.port p).frameErrors
         dropped := if clear = 1 then 0 else (s.port p).dropped }).answered p t 0x03 .ok
         [1, byte (s.port p).timeoutSteps, byte (s.port p).threshold.val, byte ((s.port p).openTags.length + 1),
           byte (s.port p).queue.length, byte (s.port p).refusals.length, byte (s.port p).frameErrors,
           byte (s.port p).dropped])))

/-- R84, R128, R178: PORT.CANCEL of a waiting NOTICE.WAIT or of a queued or converting direct job of this port removes the
wait or the job, or sets the job to DISCARD with the conversion going on; the CANCELLED answer goes ahead of the cancel's
OK. A tag that names no waiting request of this port gives NOT_OUTSTANDING, and one above 15 BAD_ARGUMENT. -/
def Obligations.CancelEndsTheWait : Prop :=
  ∀ (s : State) (p : Port) (t : Tag), s.Ready p t →
    (∀ b : Byte, 16 ≤ b.toNat → exec (.portCancel p t b) s = .next (s.answered p t 0x04 .badArgument [])) ∧
    (∀ u : Tag, WaitingLaw s → (∀ e ∈ (s.port p).openTags, e.tag = u → e.place = .answered) →
      exec (.portCancel p t (byte u.val)) s = .next (s.answered p t 0x04 .notOutstanding [])) ∧
    (∀ (u : Tag) (k : Byte) (due : Nat), WaitingLaw s → s.Waits p u k → { port := p, tag := u, due := due } ∈ s.waits →
      exec (.portCancel p t (byte u.val)) s = .next
        (((s.setWaits (s.waits.filter fun w => w.port != p)).served p u k .cancelled []).answered p t 0x04 .ok [])) ∧
    (∀ (u : Tag) (k : Byte) (j : DirectJob), WaitingLaw s → s.Waits p u k → j ∈ s.frontEnd.queue → j.port = p →
      j.tag = u → exec (.portCancel p t (byte u.val)) s = .next
        (((s.setFrontEnd { s.frontEnd with queue := s.frontEnd.queue.filter fun q => q != j }).served p u k
          .cancelled []).answered p t 0x04 .ok [])) ∧
    (∀ (u : Tag) (k : Byte) (j : DirectJob) (ch : ChannelNo) (g : Gain) (due : Nat)
      (phase : HeldJob → Nat → Converter), phase = .settling ∨ phase = .sampling → WaitingLaw s → s.Waits p u k →
      s.frontEnd.converter = phase (.direct j ch g) due → j.port = p → j.tag = u → j.disposition = .answer →
      exec (.portCancel p t (byte u.val)) s = .next
        (((s.setFrontEnd { s.frontEnd with
            converter := phase (.direct { j with disposition := .discard } ch g) due }).served p u k
          .cancelled []).answered p t 0x04 .ok []))

/-- R43, R85, R131, R132, R160, R180, R181: PORT.DETACH ends the session in every block, the other port's wait is served
from the notices that return, and the detach's OK is the one answer and its tag the one open tag. R181, R182: on an
ATTACHED port the assertion of PRSTn ends the session as PORT.DETACH does, with no answer left and the two counts at
0; on a DETACHED port it empties the queue, the slots and the tags, sets the counts to 0, and reaches no other block. -/
def Obligations.SessionEndReachesEveryBlock : Prop :=
  (∀ (s : State) (p : Port) (t : Tag), s.Ready p t →
     exec (.portDetach p t) s = .next ((s.afterSessionEnd p).serveWaits.answered p t 0x05 .ok []) ∧
     ((s.afterSessionEnd p).serveWaits.port p).openTags = [] ∧ ((s.afterSessionEnd p).serveWaits.port p).queue = []) ∧
  (∀ (s : State) (p : Port), s.rstAsserted = false → (s.port p).prstAsserted = false →
     ((s.port p).session = .attached → exec (.prstnAssert p) s = .next
       ((s.afterSessionEnd p).serveWaits.setPort p { s.port p with
         session := .detached, openTags := [], queue := [], refusals := [], frameErrors := 0, dropped := 0
         prstAsserted := true, selectIgnored := false, collecting := none }).updateAttention) ∧
     ((s.port p).session = .detached → exec (.prstnAssert p) s = .next
       (s.setPort p { s.port p with
         openTags := [], queue := [], refusals := [], frameErrors := 0, dropped := 0
         prstAsserted := true, selectIgnored := false, collecting := none }).updateAttention))

/-! ## The point table (R1 to R26) -/

/-- R9: the limit check passes a configuration exactly when the present limits rise strictly from LOLO through LO and HI to
HIHI and the deadband is less than every gap between two of them, the gap formed exactly; a definition or a commit that
fails it is answered INVALID_LIMITS, and a failed commit keeps the claim with its staged copy. -/
def Obligations.LimitCheckIsOrderAndDeadband : Prop :=
  (∀ c : PointConfig, limitCheck c = true ↔
    (∀ a b : Condition, [Condition.lolo, .lo, .hi, .hihi].idxOf a < [Condition.lolo, .lo, .hi, .hihi].idxOf b →
      b ≠ .normal → ∀ x y : Word32, limitOf c a = some x → limitOf c b = some y →
        x.toInt < y.toInt ∧ (c.deadband.toNat : Int) < y.toInt - x.toInt)) ∧
  (∀ (s : State) (p : Port) (t : Tag) (b : ConfigBlock) (cfg : PointConfig), s.Ready p t → configOf b = some cfg →
    b.key ≠ 0 → limitCheck cfg = false →
    exec (.pointDefine p t b) s = .next (s.answered p t 0x10 .invalidLimits [])) ∧
  (∀ (s : State) (p : Port) (t : Tag) (i : SlotNo) (g : Generation) (c : Claim), s.Ready p t → s.names i g = true →
    (s.slot i).claim = some c → c.owner = p → limitCheck c.staged = false →
    exec (.editCommit p t (byte i.val) g) s = .next (s.answered p t 0x22 .invalidLimits []))

/-- R5, R185, R187, R188: a configuration block whose fields are in range carries exactly the configuration its bytes spell:
an optional field stands where its presence bit is set, and its bytes are ignored where it is not. The block of a
configuration, in which an absent field is sent as 0, is read back as that configuration. -/
def Obligations.BlocksCarryConfigurations : Prop :=
  (∀ (b : ConfigBlock) (c : PointConfig), configOf b = some c →
    c.channel.val = b.channel.toNat ∧ c.gain.code = b.gain ∧
    c.scale = (if b.flags.getLsbD 0 then some { offset := b.offset, span := b.span } else none) ∧
    c.lolo = (if b.flags.getLsbD 1 then some b.lolo else none) ∧
    c.lo = (if b.flags.getLsbD 2 then some b.lo else none) ∧
    c.hi = (if b.flags.getLsbD 3 then some b.hi else none) ∧
    c.hihi = (if b.flags.getLsbD 4 then some b.hihi else none) ∧
    c.deadband = b.deadband ∧ c.confirm = b.confirm.toNat ∧
    c.staleInterval = (if b.flags.getLsbD 5 then some b.stale.toNat else none) ∧
    c.severity.val = b.severity.toNat ∧ c.policy.code = b.policy ∧ c.route.code = b.route ∧
    c.notifyClear = b.flags.getLsbD 6 ∧ c.notifyQuality = b.flags.getLsbD 7) ∧
  (∀ b : ConfigBlock, configOf b = none ↔
    23 < b.channel.toNat ∨ 3 < b.gain.toNat ∨ b.confirm = 0 ∨ 8 < b.confirm.toNat ∨
      (b.flags.getLsbD 5 = true ∧ (b.stale.toNat < 10 ∨ 60000 < b.stale.toNat)) ∨
      7 < b.severity.toNat ∨ 1 < b.policy.toNat ∨ 2 < b.route.toNat) ∧
  (∀ c : PointConfig, c.InRange → ∀ key : Word32, ∃ b : ConfigBlock,
    bytesOfBlock b = bytes32 key ++ configBytes c ∧ configOf b = some c) ∧
  (∀ c : PointConfig, configBytes c =
    [byte c.channel.val, c.gain.code,
      byte ((if c.scale.isSome then 1 else 0) + (if c.lolo.isSome then 2 else 0) + (if c.lo.isSome then 4 else 0) +
        (if c.hi.isSome then 8 else 0) + (if c.hihi.isSome then 16 else 0) +
        (if c.staleInterval.isSome then 32 else 0) + (if c.notifyClear then 64 else 0) +
        (if c.notifyQuality then 128 else 0))] ++
    (match c.scale with
      | none => ([0, 0, 0, 0, 0, 0, 0, 0] : List Byte)
      | some sc => bytes32 sc.offset ++ bytes32 sc.span) ++
    bytes32 (c.lolo.getD 0) ++ bytes32 (c.lo.getD 0) ++ bytes32 (c.hi.getD 0) ++ bytes32 (c.hihi.getD 0) ++
    bytes16 c.deadband ++ [byte c.confirm] ++ bytes16 (BitVec.ofNat 16 (c.staleInterval.getD 0)) ++
    [byte c.severity.val, c.policy.code, c.route.code])

/-- R2, R7, R8, R10, R11: POINT.DEFINE is refused in the order BAD_ARGUMENT, INVALID_LIMITS, KEY_IN_USE, TABLE_FULL, and
otherwise takes the lowest FREE slot, with its generation raised by one, the configuration given, the key in the key map
(its pair at the head of the model's list, log entry 18) and every other field at its starting value. -/
def Obligations.DefineTakesTheLowestFreeSlot : Prop :=
  ∀ (s : State) (p : Port) (t : Tag) (b : ConfigBlock), s.Ready p t →
    (configOf b = none ∨ b.key = 0 → exec (.pointDefine p t b) s = .next (s.answered p t 0x10 .badArgument [])) ∧
    (∀ cfg, configOf b = some cfg → b.key ≠ 0 → limitCheck cfg = false →
      exec (.pointDefine p t b) s = .next (s.answered p t 0x10 .invalidLimits [])) ∧
    (∀ cfg, configOf b = some cfg → b.key ≠ 0 → limitCheck cfg = true →
      ((∃ e ∈ s.keyMap, e.key = b.key) →
        exec (.pointDefine p t b) s = .next (s.answered p t 0x10 .keyInUse [])) ∧
      ((∀ e ∈ s.keyMap, e.key ≠ b.key) → (∀ i, (s.slot i).state = .defined) →
        exec (.pointDefine p t b) s = .next (s.answered p t 0x10 .tableFull [])) ∧
      (∀ i : SlotNo, (∀ e ∈ s.keyMap, e.key ≠ b.key) → (s.slot i).state = .free →
        (∀ j < i, (s.slot j).state = .defined) →
        exec (.pointDefine p t b) s = .next
          (((s.setSlot i {
              state := .defined, gen := (s.slot i).gen + 1, key := b.key, cfg := cfg, link := none, raw := 0
              value := 0, quality := .unsampled, condition := .normal, pendingCandidate := none, pendingCount := 0
              sampleSeq := 0, staleTimer := none, claim := none }).setKeyMap
            ({ key := b.key, slot := i } :: s.keyMap)).answered p t 0x10 .ok [byte i.val, (s.slot i).gen + 1])))

/-- R13, R14, R16, R188: POINT.FIND, POINT.READ and TABLE.SUMMARY answer from the table as it stands and change nothing.
R14, R188: the 61 bytes of a POINT.READ are the record, its stale timer's remaining milliseconds (log entry 17), its
claim's owner, its place in the lists and its notice's state. R16: a TABLE.SUMMARY counts the DEFINED points of the whole
table, gives the first 28 from the start slot upward, and continues at the slot after the last of them where more lie
above it. -/
def Obligations.LookupsOnlyAnswer : Prop :=
  ∀ (s : State) (p : Port) (t : Tag), s.Ready p t →
    exec (.pointFind p t 0) s = .next (s.answered p t 0x11 .badArgument []) ∧
    (∀ key, key ≠ 0 → (∀ e ∈ s.keyMap, e.key ≠ key) →
      exec (.pointFind p t key) s = .next (s.answered p t 0x11 .notFound [])) ∧
    (∀ i, KeyLaw s → (s.slot i).state = .defined →
      exec (.pointFind p t (s.slot i).key) s = .next (s.answered p t 0x11 .ok [byte i.val, (s.slot i).gen])) ∧
    (∀ (i : SlotNo) (g : Generation) (place : List Byte), s.names i g = true →
      ((∀ c, ∀ e ∈ (s.cls c).list, e ≠ { slot := i, gen := g }) ∧ place = [0xFF, 0]) ∨
        (ListLaw s ∧ ∃ (c : ClassNo) (k : Nat), (s.cls c).list[k]? = some { slot := i, gen := g } ∧
          place = [byte c.val, byte k]) →
      exec (.pointRead p t (byte i.val) g) s = .next (s.answered p t 0x12 .ok
        ([byte i.val, g] ++ bytes32 (s.slot i).key ++ configBytes (s.slot i).cfg ++
          [match (s.slot i).link with
            | none => 0xFF
            | some a => byte a.val,
            byte ((s.slot i).raw.toNat / 256), byte (s.slot i).raw.toNat] ++
          bytes32 (s.slot i).value ++
          [(s.slot i).quality.code, (s.slot i).condition.code,
            match (s.slot i).pendingCandidate with
            | none => 0xFF
            | some x => x.code,
            byte (s.slot i).pendingCount] ++
          bytes16 (s.slot i).sampleSeq ++
          (match (s.slot i).staleTimer with
            | none => ([0, 0] : List Byte)
            | some due => bytes16 (BitVec.ofNat 16 (max 1 ((due - s.now + 999) / 1000)))) ++
          [match (s.slot i).claim with
            | none => (0 : Byte)
            | some c => if c.owner = .H then 1 else 2] ++
          place ++
          (match s.notice i with
            | none => ([0, 0] : List Byte)
            | some n => [match n.state with
                | .pending => 1
                | .delivered .H => 2
                | .delivered .L => 3, if n.followOn = none then 0 else 1])))) ∧
    (∀ b : Byte, 128 ≤ b.toNat → exec (.tableSummary p t b) s = .next (s.answered p t 0x13 .badArgument [])) ∧
    (∀ (start : SlotNo) (all : List SlotNo), all.Pairwise (· < ·) → (∀ i, i ∈ all ↔ (s.slot i).state = .defined) →
      let above := all.filter fun i => start ≤ i
      exec (.tableSummary p t (byte start.val)) s = .next (s.answered p t 0x13 .ok
        ([byte all.length, byte (above.take 28).length] ++
          (above.take 28).flatMap (fun i => [byte i.val, (s.slot i).gen]) ++
          [match above[27]? with
            | none => 0xFF
            | some i => if 28 < above.length then byte (i.val + 1) else 0xFF])))

/-- R17 to R22, R64: POINT.RETIRE is answered CLAIMED where the other port holds the claim. Otherwise the slot is FREE with
its generation kept, its key, notice, entry, claim and link are gone, the action's link count and the saved values of
its drives for the slot with them, and no other point, notice or action record changes. A class that does not list the
point is as it was; the class that does is settled as by a removal: before the cursor, the cursor goes down by one;
beyond it, nothing of the pass changes; at the cursor, a POSTED job is withdrawn and the next entry's posted, or the
pass completes, and a CONVERTING job goes on and sets the removed mark. -/
def Obligations.RetireClearsEveryReference : Prop :=
  ∀ (s : State) (p : Port) (t : Tag) (i : SlotNo) (g : Generation), s.Ready p t → s.names i g = true →
    ((s.slot i).claim.map Claim.owner = some p.other →
      exec (.pointRetire p t (byte i.val) g) s = .next (s.answered p t 0x14 .claimed [])) ∧
    ((s.slot i).claim.map Claim.owner ≠ some p.other → SchedulerLaw s →
      ∃ u : State, exec (.pointRetire p t (byte i.val) g) s = .next (u.answered p t 0x14 .ok [byte i.val, g]) ∧
        (∀ j, u.slot j = if j = i then PointSlot.freed g else s.slot j) ∧
        u.keyMap = s.keyMap.filter (fun e => e.slot != i) ∧
        (∀ j, u.notice j = if j = i then none else s.notice j) ∧
        (∀ c, (∀ e ∈ (s.cls c).list, e.slot ≠ i) → u.cls c = s.cls c) ∧
        (∀ (c : ClassNo) (before after : List ListEntry),
          (s.cls c).list = before ++ { slot := i, gen := g } :: after →
          (before.length < (s.cls c).cursor →
            u.cls c = { s.cls c with list := before ++ after, cursor := (s.cls c).cursor - 1 }) ∧
          ((s.cls c).cursor < before.length → u.cls c = { s.cls c with list := before ++ after }) ∧
          ((s.cls c).cursor = before.length →
            ((s.cls c).job = none → u.cls c = { s.cls c with list := before ++ after }) ∧
            (∀ j, (s.cls c).job = some { job := j, phase := .converting } →
              u.cls c = { s.cls c with list := before ++ after, removedMark := true }) ∧
            (∀ j, (s.cls c).job = some { job := j, phase := .posted } →
              (after = [] → u.cls c = { s.cls c with list := before ++ after, job := none, state := .waiting }) ∧
              (∀ e rest, after = e :: rest → u.cls c = { s.cls c with
                list := before ++ after
                job := some {
                  phase := .posted
                  job := {
                    slot := e.slot, gen := e.gen
                    channel := (s.slot e.slot).cfg.channel, gain := (s.slot e.slot).cfg.gain } } })))) ∧
        (∀ a, u.action a = if (s.slot i).link = some a then
          { s.action a with linkCount := (s.action a).linkCount - 1 } else s.action a) ∧
        (∀ o, u.output o = if ∃ a, (s.slot i).link = some a ∧ (s.output o).lastWriter = .action a i then
          { s.output o with saved := none } else s.output o) ∧
        u.frontEnd = s.frontEnd ∧ u.raiseSeq = s.raiseSeq ∧ u.waits = s.waits ∧ (∀ q, u.port q = s.port q) ∧
        u.now = s.now)

/-! ## Editing under claim (R27 to R44) -/

/-- R28, R29: EDIT.OPEN opens a claim with a staged copy of the running configuration, or sets the expiry of this port's
claim again and keeps the staged copy, or names the other port as owner; the running point is as it was. R28, R39: an
EDIT.DROP by the owner, and the lapse of a claim, discard the claim with its staged copy and change nothing else of
the point; a lapse answers no one, and the clock goes on to its time (log entry 4). -/
def Obligations.ClaimsOpenDropAndLapse : Prop :=
  (∀ (s : State) (p : Port) (t : Tag) (i : SlotNo) (g : Generation), s.Ready p t → s.names i g = true →
     ((s.slot i).claim = none → exec (.editOpen p t (byte i.val) g) s = .next
       ((s.setSlot i { s.slot i with claim := some {
         owner := p, staged := (s.slot i).cfg
         due := s.now + (s.port p).timeoutSteps * 10000 } }).answered p t 0x20 .ok (0 :: configBytes (s.slot i).cfg))) ∧
     (∀ c, (s.slot i).claim = some c → c.owner = p → exec (.editOpen p t (byte i.val) g) s = .next
       ((s.setSlot i { s.slot i with claim := some {
         owner := p, staged := c.staged
         due := s.now + (s.port p).timeoutSteps * 10000 } }).answered p t 0x20 .ok (1 :: configBytes c.staged))) ∧
     (∀ c, (s.slot i).claim = some c → c.owner ≠ p → exec (.editOpen p t (byte i.val) g) s = .next
       (s.answered p t 0x20 .claimed [if p = .H then 2 else 1]))) ∧
  (∀ (s : State) (i : SlotNo) (c : Claim), (s.slot i).claim = some c →
     (∀ (p : Port) (t : Tag) (g : Generation), s.Ready p t → s.names i g = true → c.owner = p →
       exec (.editDrop p t (byte i.val) g) s = .next
         ((s.setSlot i { s.slot i with claim := none }).answered p t 0x23 .ok [])) ∧
     (s.rstAsserted = false → exec (.claimLapse i) s = .next
       ({ s with now := max s.now c.due }.setSlot i { s.slot i with claim := none }).updateAttention))

/-- R31, R187: an EDIT.SET of a port that holds the claim writes the one field its code names into the staged copy, from
the head of the value area, or makes an optional field absent, and sets the expiry again; the running point is as it
was. -/
def Obligations.SetStagesTheNamedField : Prop :=
  ∀ (s : State) (p : Port) (t : Tag) (i : SlotNo) (g : Generation) (c : Claim), s.Ready p t → s.names i g = true →
    (s.slot i).claim = some c → c.owner = p →
    let sets (field presence : Byte) (area : BitVec 64) (staged : PointConfig) : Prop :=
      exec (.editSet p t (byte i.val) g field presence area) s = .next
        ((s.setSlot i { s.slot i with claim := some {
          owner := p, staged := staged
          due := s.now + (s.port p).timeoutSteps * 10000 } }).answered p t 0x21 .ok [])
    (∀ (ch : ChannelNo) (r : BitVec 56), sets 1 1 (byte ch.val ++ r) { c.staged with channel := ch }) ∧
    (∀ (gn : Gain) (r : BitVec 56), sets 2 1 (gn.code ++ r) { c.staged with gain := gn }) ∧
    (∀ o sp : Word32, sets 3 1 (o ++ sp) { c.staged with scale := some { offset := o, span := sp } }) ∧
    (∀ l r : Word32, sets 4 1 (l ++ r) { c.staged with lolo := some l }) ∧
    (∀ l r : Word32, sets 5 1 (l ++ r) { c.staged with lo := some l }) ∧
    (∀ l r : Word32, sets 6 1 (l ++ r) { c.staged with hi := some l }) ∧
    (∀ l r : Word32, sets 7 1 (l ++ r) { c.staged with hihi := some l }) ∧
    (∀ (d : Word16) (r : BitVec 48), sets 8 1 (d ++ r) { c.staged with deadband := d }) ∧
    (∀ (n : Byte) (r : BitVec 56), 1 ≤ n.toNat → n.toNat ≤ 8 →
      sets 9 1 (n ++ r) { c.staged with confirm := n.toNat }) ∧
    (∀ (ms : Word16) (r : BitVec 48), 10 ≤ ms.toNat → ms.toNat ≤ 60000 →
      sets 10 1 (ms ++ r) { c.staged with staleInterval := some ms.toNat }) ∧
    (∀ (v : Severity) (r : BitVec 56), sets 11 1 (byte v.val ++ r) { c.staged with severity := v }) ∧
    (∀ (v : Policy) (r : BitVec 56), sets 12 1 (v.code ++ r) { c.staged with policy := v }) ∧
    (∀ (v : Route) (r : BitVec 56), sets 13 1 (v.code ++ r) { c.staged with route := v }) ∧
    (∀ (v : Bool) (r : BitVec 56), sets 14 1 (yesNoByte v ++ r) { c.staged with notifyClear := v }) ∧
    (∀ (v : Bool) (r : BitVec 56), sets 15 1 (yesNoByte v ++ r) { c.staged with notifyQuality := v }) ∧
    (∀ a, sets 3 0 a { c.staged with scale := none }) ∧
    (∀ a, sets 4 0 a { c.staged with lolo := none }) ∧ (∀ a, sets 5 0 a { c.staged with lo := none }) ∧
    (∀ a, sets 6 0 a { c.staged with hi := none }) ∧ (∀ a, sets 7 0 a { c.staged with hihi := none }) ∧
    (∀ a, sets 10 0 a { c.staged with staleInterval := none })

/-- R31: an EDIT.SET whose code names no editable field, whose presence byte is not one the field takes, or whose value is
out of range is answered BAD_ARGUMENT before the reference is looked at; a port without the claim is answered NO_CLAIM
by EDIT.SET of any field and value in range, and by EDIT.COMMIT and EDIT.DROP. Nothing changes. -/
def Obligations.EditsNeedARangeAndAClaim : Prop :=
  ∀ (s : State) (p : Port) (t : Tag), s.Ready p t →
    (∀ (field presence : Byte) (area : BitVec 64), fieldEdit field presence area = none ↔
      (field = 0 ∨ 15 < field.toNat ∨ 1 < presence.toNat ∨
        (presence = 0 ∧ (field.toNat ≤ 2 ∨ 8 ≤ field.toNat) ∧ field ≠ 10) ∨
        (presence = 1 ∧
          ((field = 1 ∧ 23 < (area.extractLsb' 56 8).toNat) ∨ (field = 2 ∧ 3 < (area.extractLsb' 56 8).toNat) ∨
            (field = 9 ∧ ((area.extractLsb' 56 8).toNat = 0 ∨ 8 < (area.extractLsb' 56 8).toNat)) ∨
            (field = 10 ∧ ((area.extractLsb' 48 16).toNat < 10 ∨ 60000 < (area.extractLsb' 48 16).toNat)) ∨
            (field = 11 ∧ 7 < (area.extractLsb' 56 8).toNat) ∨ (field = 12 ∧ 1 < (area.extractLsb' 56 8).toNat) ∨
            (field = 13 ∧ 2 < (area.extractLsb' 56 8).toNat) ∨
            ((field = 14 ∨ field = 15) ∧ 1 < (area.extractLsb' 56 8).toNat))))) ∧
    (∀ (slot g field presence : Byte) (area : BitVec 64), fieldEdit field presence area = none →
      exec (.editSet p t slot g field presence area) s = .next (s.answered p t 0x21 .badArgument [])) ∧
    (∀ (i : SlotNo) (g : Generation), s.names i g = true → (s.slot i).claim.map Claim.owner ≠ some p →
      (∀ (field presence : Byte) (area : BitVec 64), fieldEdit field presence area ≠ none →
        exec (.editSet p t (byte i.val) g field presence area) s = .next (s.answered p t 0x21 .noClaim [])) ∧
      exec (.editCommit p t (byte i.val) g) s = .next (s.answered p t 0x22 .noClaim []) ∧
      exec (.editDrop p t (byte i.val) g) s = .next (s.answered p t 0x23 .noClaim []))

/-- R33 to R37: a commit that passes the limit check writes the staged copy as a whole and ends the claim and the pending
state. Exactly where the limit of the point's condition is now absent it takes the point to NORMAL with the effects of
a condition change, under the configuration committed. It sets the stale timer by the intervals before and after and by
the class, and then the waits are served. Raw, value, quality, sample sequence, key and link stay, and so does every
other point, class, action record and job; where the condition stays and no request waits, nothing else changes. -/
def Obligations.CommitWritesTheStagedCopy : Prop :=
  ∀ (s : State) (p : Port) (t : Tag) (i : SlotNo) (g : Generation) (c : Claim), s.Ready p t → s.names i g = true →
    (s.slot i).claim = some c → c.owner = p → limitCheck c.staged = true → WaitingLaw s →
    let timer :=
      if s.listedActive i = true ∧ c.staged.staleInterval ≠ (s.slot i).cfg.staleInterval then
        c.staged.staleInterval.map fun ms => s.now + ms * 1000
      else (s.slot i).staleTimer
    let written := s.setSlot i { s.slot i with
      cfg := c.staged, claim := none, pendingCandidate := none, pendingCount := 0, staleTimer := timer }
    let u :=
      (if (s.slot i).condition ≠ .normal ∧ limitOf c.staged (s.slot i).condition = none then
        written.changeCondition i .normal
      else written).serveWaits
    exec (.editCommit p t (byte i.val) g) s = .next (u.answered p t 0x22 .ok [byte i.val, g]) ∧
      (∀ j, u.slot j = if j = i then { s.slot i with
          cfg := c.staged, claim := none, pendingCandidate := none, pendingCount := 0
          condition := if limitOf c.staged (s.slot i).condition = none then .normal else (s.slot i).condition
          staleTimer := timer }
        else s.slot j) ∧
      u.keyMap = s.keyMap ∧ u.classes = s.classes ∧ u.frontEnd = s.frontEnd ∧ u.actions = s.actions ∧ u.now = s.now ∧
      (limitOf c.staged (s.slot i).condition ≠ none ∨ (s.slot i).condition = .normal →
        u.outputs = s.outputs ∧ u.raiseSeq = s.raiseSeq ∧
        (s.waits = [] → u.notices = s.notices ∧ u.waits = s.waits ∧ ∀ q, u.port q = s.port q))

/-! ## Scan classes and scan lists (R45 to R69) -/

/-- R46: CLASS.CONFIG writes the source and the period of a STOPPED class and nothing else; it is refused BAD_ARGUMENT for
a class above 3, a source above 3 or a period of 0, then CLASS_ACTIVE. -/
def Obligations.ConfigNeedsAStoppedClass : Prop :=
  ∀ (s : State) (p : Port) (t : Tag), s.Ready p t →
    (∀ (c src : Byte) (n : Word16), 4 ≤ c.toNat ∨ 4 ≤ src.toNat ∨ n = 0 →
      exec (.classConfig p t c src n) s = .next (s.answered p t 0x30 .badArgument [])) ∧
    (∀ (c : ClassNo) (src : TriggerSource) (n : Word16), n ≠ 0 → (s.cls c).state ≠ .stopped →
      exec (.classConfig p t (byte c.val) src.code n) s = .next (s.answered p t 0x30 .classActive [])) ∧
    (∀ (c : ClassNo) (src : TriggerSource) (n : Word16), n ≠ 0 → (s.cls c).state = .stopped →
      exec (.classConfig p t (byte c.val) src.code n) s = .next
        ((s.setCls c { s.cls c with source := src, period := n }).answered p t 0x30 .ok []))

/-- R50, R51, R52: CLASS.START takes a STOPPED class to WAITING with overrun count 0, starts the period timer of a
PERIODIC class, and starts the stale timer of every listed point that has an interval; it leaves the pass sequence,
the list and the cursor. A class that is not STOPPED answers CLASS_ACTIVE, and a class above 3 BAD_ARGUMENT. R65,
R66: CLASS.STOP of a WAITING class, or of a RUNNING one whose job is POSTED, reaches STOPPED: the job is withdrawn,
the timers of the class and of its listed points stop, the cursor is 0 and the mark clear. A RUNNING class whose job
converts becomes STOPPING and keeps the job, and a class that is STOPPING or STOPPED stays so. The answer is the
state left. -/
def Obligations.ClassesStartAndStop : Prop :=
  (∀ (s : State) (p : Port) (t : Tag), s.Ready p t →
     (∀ b : Byte, 4 ≤ b.toNat → exec (.classStart p t b) s = .next (s.answered p t 0x31 .badArgument [])) ∧
     (∀ c : ClassNo, (s.cls c).state ≠ .stopped →
       exec (.classStart p t (byte c.val)) s = .next (s.answered p t 0x31 .classActive [])) ∧
     (∀ c : ClassNo, (s.cls c).state = .stopped → exec (.classStart p t (byte c.val)) s = .next
       (((s.setCls c { s.cls c with
           state := .waiting, overruns := 0
           periodTimer := if (s.cls c).source = .periodic then some (s.now + (s.cls c).period.toNat * 100)
             else none }).withSlots fun i =>
         if ∃ e ∈ (s.cls c).list, e.slot = i then
           match (s.slot i).cfg.staleInterval with
           | none => s.slot i
           | some ms => { s.slot i with staleTimer := some (s.now + ms * 1000) }
         else s.slot i).answered p t 0x31 .ok []))) ∧
  (∀ (s : State) (p : Port) (t : Tag), s.Ready p t →
     (∀ b : Byte, 4 ≤ b.toNat → exec (.classStop p t b) s = .next (s.answered p t 0x32 .badArgument [])) ∧
     (∀ c : ClassNo, (s.cls c).state = .waiting ∨
         ((s.cls c).state = .running ∧ ∃ j, (s.cls c).job = some { job := j, phase := .posted }) →
       exec (.classStop p t (byte c.val)) s = .next
         (((s.setCls c { s.cls c with
             state := .stopped, periodTimer := none, cursor := 0, removedMark := false, job := none }).withSlots fun i =>
           if ∃ e ∈ (s.cls c).list, e.slot = i then { s.slot i with staleTimer := none }
           else s.slot i).answered p t 0x32 .ok [0])) ∧
     (∀ c : ClassNo, (s.cls c).state = .running → (∃ j, (s.cls c).job = some { job := j, phase := .converting }) →
       exec (.classStop p t (byte c.val)) s = .next
         ((s.setCls c { s.cls c with state := .stopping }).answered p t 0x32 .ok [3])) ∧
     (∀ c : ClassNo, (s.cls c).state = .stopping →
       exec (.classStop p t (byte c.val)) s = .next (s.answered p t 0x32 .ok [3])) ∧
     (∀ c : ClassNo, (s.cls c).state = .stopped →
       exec (.classStop p t (byte c.val)) s = .next (s.answered p t 0x32 .ok [0])))

/-- R54, R55, R56, R59: CLASS.TRIGGER starts a pass in a WAITING class, with the cursor at 0, the pass sequence one
higher and a job posted for the first entry with its point's channel and gain; a pass over an empty list completes at
once. A RUNNING class counts an overrun, a STOPPING one ignores the trigger, a STOPPED one answers CLASS_STOPPED. -/
def Obligations.TriggerStartsAPass : Prop :=
  ∀ (s : State) (p : Port) (t : Tag), s.Ready p t →
    (∀ b : Byte, 4 ≤ b.toNat → exec (.classTrigger p t b) s = .next (s.answered p t 0x33 .badArgument [])) ∧
    (∀ (c : ClassNo) (e : ListEntry) (rest : List ListEntry), (s.cls c).state = .waiting → (s.cls c).job = none →
      (s.cls c).list = e :: rest → exec (.classTrigger p t (byte c.val)) s = .next
        ((s.setCls c { s.cls c with
            state := .running, cursor := 0, passSeq := (s.cls c).passSeq + 1
            job := some {
              phase := .posted
              job := {
                slot := e.slot, gen := e.gen
                channel := (s.slot e.slot).cfg.channel, gain := (s.slot e.slot).cfg.gain } }
          }).answered p t 0x33 .ok [0])) ∧
    (∀ c : ClassNo, (s.cls c).state = .waiting → (s.cls c).job = none → (s.cls c).list = [] →
      exec (.classTrigger p t (byte c.val)) s = .next
        ((s.setCls c { s.cls c with
            cursor := 0, passSeq := (s.cls c).passSeq + 1 }).answered p t 0x33 .ok [0])) ∧
    (∀ c : ClassNo, (s.cls c).state = .running → exec (.classTrigger p t (byte c.val)) s = .next
        ((s.setCls c { s.cls c with overruns := min 255 ((s.cls c).overruns + 1) }).answered p t 0x33 .ok [1])) ∧
    (∀ c : ClassNo, (s.cls c).state = .stopping →
      exec (.classTrigger p t (byte c.val)) s = .next (s.answered p t 0x33 .ok [2])) ∧
    (∀ c : ClassNo, (s.cls c).state = .stopped →
      exec (.classTrigger p t (byte c.val)) s = .next (s.answered p t 0x33 .classStopped []))

/-- R52, R53, R55: an expiry of a period timer restarts the timer one period on and triggers its class; a rising edge
triggers every class whose source is its line. A class that is triggered starts a pass where it is WAITING with a list,
counts an overrun where it is RUNNING, and is otherwise as it was where it is STOPPING or STOPPED; no other class and no
other block changes. -/
def Obligations.TimersAndEdgesTrigger : Prop :=
  ∀ s : State, s.rstAsserted = false →
    (∀ (c : ClassNo) (due : Nat), (s.cls c).periodTimer = some due → SchedulerLaw s →
      ∃ u : State, exec (.periodExpiry c) s = .next u.updateAttention ∧
        s.Triggered { s.cls c with periodTimer := some (due + (s.cls c).period.toNat * 100) } (u.cls c) ∧
        (∀ d, d ≠ c → u.cls d = s.cls d) ∧ u = { s with now := max s.now due, classes := u.classes }) ∧
    (∀ line : XtLine, SchedulerLaw s →
      ∃ u : State, exec (.xtRisingEdge line) s = .next u.updateAttention ∧
        (∀ d, if (s.cls d).source = (match line with
            | .xt0 => TriggerSource.ext0
            | .xt1 => TriggerSource.ext1) then s.Triggered (s.cls d) (u.cls d) else u.cls d = s.cls d) ∧
        u = { s with classes := u.classes })

/-- R67, R68: CLASS.STATUS and LIST.READ answer the class as it stands, CLASS.STATUS setting the overrun count to 0 after
the snapshot where it is asked to, and change nothing else. -/
def Obligations.ClassReadsAreSnapshots : Prop :=
  ∀ (s : State) (p : Port) (t : Tag), s.Ready p t →
    (∀ b q : Byte, 4 ≤ b.toNat ∨ 2 ≤ q.toNat →
      exec (.classStatus p t b q) s = .next (s.answered p t 0x34 .badArgument [])) ∧
    (∀ b : Byte, 4 ≤ b.toNat → exec (.listRead p t b) s = .next (s.answered p t 0x3A .badArgument [])) ∧
    (∀ c : ClassNo, exec (.listRead p t (byte c.val)) s = .next (s.answered p t 0x3A .ok
      (byte (s.cls c).list.length :: (s.cls c).list.flatMap fun e => [byte e.slot.val, e.gen]))) ∧
    (∀ (c : ClassNo) (clear : Bool), exec (.classStatus p t (byte c.val) (yesNoByte clear)) s = .next
      ((s.setCls c { s.cls c with overruns := if clear then 0 else (s.cls c).overruns }).answered p t 0x34 .ok
        ([(s.cls c).source.code] ++ bytes16 (s.cls c).period ++
          [(s.cls c).state.code, byte (s.cls c).list.length, byte (s.cls c).cursor] ++
          (match (s.cls c).job with
            | none => [0, 0, 0]
            | some j => [if j.phase = .posted then 1 else 2, byte j.job.slot.val, j.job.gen]) ++
          [yesNoByte (s.cls c).removedMark] ++ bytes16 (s.cls c).passSeq ++ [byte (s.cls c).overruns])))

/-- R48, R50, R60: LIST.INSERT is refused in the order ALREADY_LISTED, BAD_ARGUMENT for a position beyond the list,
LIST_FULL; otherwise the entry goes in at the position, the cursor moves up where the position is at or before it, and
the point's stale timer starts where the class is WAITING or RUNNING and the point has an interval. -/
def Obligations.InsertKeepsTheCursorsEntry : Prop :=
  ∀ (s : State) (p : Port) (t : Tag) (c : ClassNo) (i : SlotNo) (g : Generation) (k : Byte), s.Ready p t →
    s.names i g = true →
    (∀ b : Byte, 4 ≤ b.toNat ∨ 48 < k.toNat →
      exec (.listInsert p t b (byte i.val) g k) s = .next (s.answered p t 0x38 .badArgument [])) ∧
    (k.toNat ≤ 48 → (∃ d, ∃ e ∈ (s.cls d).list, e.slot = i ∧ e.gen = g) →
      exec (.listInsert p t (byte c.val) (byte i.val) g k) s = .next (s.answered p t 0x38 .alreadyListed [])) ∧
    ((∀ d, ∀ e ∈ (s.cls d).list, e.slot ≠ i ∨ e.gen ≠ g) →
      ((s.cls c).list.length < k.toNat →
        exec (.listInsert p t (byte c.val) (byte i.val) g k) s = .next (s.answered p t 0x38 .badArgument [])) ∧
      (k.toNat ≤ (s.cls c).list.length → (s.cls c).list.length = 48 →
        exec (.listInsert p t (byte c.val) (byte i.val) g k) s = .next (s.answered p t 0x38 .listFull [])) ∧
      (k.toNat ≤ (s.cls c).list.length → (s.cls c).list.length < 48 →
        exec (.listInsert p t (byte c.val) (byte i.val) g k) s = .next
          (((s.setCls c { s.cls c with
              list := (s.cls c).list.take k.toNat ++ [{ slot := i, gen := g }] ++ (s.cls c).list.drop k.toNat
              cursor := if k.toNat ≤ (s.cls c).cursor then (s.cls c).cursor + 1 else (s.cls c).cursor }).setSlot i {
            s.slot i with
            staleTimer :=
              if ((s.cls c).state = .waiting ∨ (s.cls c).state = .running) ∧ (s.slot i).cfg.staleInterval.isSome then
                (s.slot i).cfg.staleInterval.map fun ms => s.now + ms * 1000
              else (s.slot i).staleTimer }).answered p t 0x38 .ok [byte c.val, k])))

/-- R49, R50, R61, R62, R63: LIST.REMOVE takes the entry out and stops the point's stale timer. Before the cursor, the
cursor goes down by one; beyond it, nothing of the pass changes. At the cursor, a POSTED job is withdrawn and the next
entry's posted, or the pass completes; a CONVERTING job goes on and sets the removed mark. A point not listed in the
class gives NOT_LISTED. -/
def Obligations.RemoveSettlesThePass : Prop :=
  ∀ (s : State) (p : Port) (t : Tag) (c : ClassNo) (i : SlotNo) (g : Generation), s.Ready p t →
    s.names i g = true →
    (∀ b : Byte, 4 ≤ b.toNat → exec (.listRemove p t b (byte i.val) g) s = .next
      (s.answered p t 0x39 .badArgument [])) ∧
    ((∀ e ∈ (s.cls c).list, e.slot ≠ i ∨ e.gen ≠ g) →
      exec (.listRemove p t (byte c.val) (byte i.val) g) s = .next (s.answered p t 0x39 .notListed [])) ∧
    (∀ before after : List ListEntry, (s.cls c).list = before ++ { slot := i, gen := g } :: after →
      (∀ e ∈ before, e.slot ≠ i ∨ e.gen ≠ g) →
      let removed (r : ScanClass) : Prop :=
        exec (.listRemove p t (byte c.val) (byte i.val) g) s = .next
          (((s.setCls c { r with list := before ++ after }).setSlot i { s.slot i with staleTimer := none }).answered p t
            0x39 .ok [byte before.length])
      (before.length < (s.cls c).cursor → removed { s.cls c with cursor := (s.cls c).cursor - 1 }) ∧
      ((s.cls c).cursor < before.length → removed (s.cls c)) ∧
      ((s.cls c).cursor = before.length →
        ((s.cls c).job = none → removed (s.cls c)) ∧
        (∀ j, (s.cls c).job = some { job := j, phase := .converting } →
          removed { s.cls c with removedMark := true }) ∧
        (∀ j, (s.cls c).job = some { job := j, phase := .posted } → (s.cls c).state = .running →
          (after = [] → removed { s.cls c with job := none, state := .waiting }) ∧
          (∀ e rest, after = e :: rest → removed { s.cls c with job := some {
            phase := .posted
            job := {
              slot := e.slot, gen := e.gen
              channel := (s.slot e.slot).cfg.channel, gain := (s.slot e.slot).cfg.gain } } }))))

/-! ## The conversion front end (R70 to R86) -/

/-- R76, R77, R79, R169: CONVERT.DIRECT and POINT.SAMPLE put a job of disposition ANSWER at the tail of the direct queue
and wait with their tag open; a channel above 23 or a gain above 3 gives BAD_ARGUMENT. -/
def Obligations.DirectRequestsQueueAJob : Prop :=
  ∀ (s : State) (p : Port) (t : Tag), s.Ready p t →
    (∀ ch g : Byte, 24 ≤ ch.toNat ∨ 4 ≤ g.toNat →
      exec (.convertDirect p t ch g) s = .next (s.answered p t 0x40 .badArgument [])) ∧
    (∀ (ch : ChannelNo) (g : Gain), exec (.convertDirect p t (byte ch.val) g.code) s = .next
      ((s.setFrontEnd { s.frontEnd with
        queue := s.frontEnd.queue ++ [{
          port := p, tag := t, target := .convert ch g, disposition := .answer }] }).accepted p t 0x40)) ∧
    (∀ (i : SlotNo) (g : Generation), s.names i g = true → exec (.pointSample p t (byte i.val) g) s = .next
      ((s.setFrontEnd { s.frontEnd with
        queue := s.frontEnd.queue ++ [{
          port := p, tag := t, target := .sample i g, disposition := .answer }] }).accepted p t 0x15))

/-- R57, R72, R73, R80, R82: a grant takes the head of the direct queue, and a class's posted job only where the queue is
empty, the lowest class first. The job enters SAMPLING at once, for 5 µs, where its channel and gain are open, and
otherwise SETTLING, for the time of its gain, with the selection now open; a POINT.SAMPLE takes its point's channel
and gain, and a stale one is answered STALE_REF with the converter IDLE. A converter that is not IDLE takes nothing,
nor does one for which no job waits. R73: the end of the settling time takes the converter from SETTLING to SAMPLING,
for 5 µs, with the same job, and changes nothing else; in another state there is no such end. -/
def Obligations.GrantSettlesOrSamples : Prop :=
  (∀ s : State, s.rstAsserted = false →
     let enters (u : State) (j : HeldJob) (queue : List DirectJob) (ch : ChannelNo) (g : Gain) : Prop :=
       exec .grant s = .next (u.setFrontEnd (
         if s.frontEnd.openSel = some { channel := ch, gain := g } then {
           converter := .sampling j (s.now + 5), openSel := s.frontEnd.openSel, queue := queue }
         else {
           converter := .settling j (s.now + match g with
             | .g1 => 18
             | .g4 => 22
             | .g16 => 30
             | .g64 => 46)
           openSel := some { channel := ch, gain := g }, queue := queue })).updateAttention
     (s.frontEnd.converter ≠ .idle → exec .grant s = .next s.updateAttention) ∧
     (s.frontEnd.converter = .idle →
       (∀ (p : Port) (t : Tag) (ch : ChannelNo) (g : Gain) (d : Disposition) (rest : List DirectJob),
         s.frontEnd.queue = { port := p, tag := t, target := .convert ch g, disposition := d } :: rest →
         enters s (.direct { port := p, tag := t, target := .convert ch g, disposition := d } ch g) rest ch g) ∧
       (∀ (p : Port) (t : Tag) (i : SlotNo) (gen : Generation) (d : Disposition) (rest : List DirectJob),
         s.frontEnd.queue = { port := p, tag := t, target := .sample i gen, disposition := d } :: rest →
         (s.names i gen = true →
           enters s (.direct { port := p, tag := t, target := .sample i gen, disposition := d }
             (s.slot i).cfg.channel (s.slot i).cfg.gain) rest (s.slot i).cfg.channel (s.slot i).cfg.gain) ∧
         (∀ k, s.names i gen = false → s.Waits p t k →
           exec .grant s = .next
             ((s.setFrontEnd { s.frontEnd with queue := rest }).served p t k .staleRef []).updateAttention)) ∧
       (s.frontEnd.queue = [] →
         (∀ (c : ClassNo) (j : ScanJob), (s.cls c).job = some { job := j, phase := .posted } →
           (∀ d < c, ∀ q, (s.cls d).job ≠ some { job := q, phase := .posted }) →
           enters (s.setCls c { s.cls c with job := some { job := j, phase := .converting } }) (.scan c j) []
             j.channel j.gain) ∧
         ((∀ c q, (s.cls c).job ≠ some { job := q, phase := .posted }) → exec .grant s = .next s.updateAttention)))) ∧
  (∀ s : State, s.rstAsserted = false →
     (∀ (j : HeldJob) (due : Nat), s.frontEnd.converter = .settling j due → exec .settlingElapsed s = .next
       ({ s with now := max s.now due }.setFrontEnd { s.frontEnd with
         converter := .sampling j (max s.now due + 5) }).updateAttention) ∧
     ((∀ j due, s.frontEnd.converter ≠ .settling j due) → exec .settlingElapsed s = .next s.updateAttention))

/-- R70, R72, R74, R75, R78: a CONVERT.DIRECT job that completes is answered with the raw reading that its input has at its
gain and the clipped flag, or, set to DISCARD, answers nothing; either way the converter is IDLE, a clipped sample
closes the open selection, and no point and no other record changes. R81, R88, R89, R125: a POINT.SAMPLE of disposition
ANSWER that completes is applied where the slot is DEFINED with the job's generation and the point's channel and gain
are those of the grant, the waits are served, and it is answered OK with what the point holds; otherwise no point changes
and it is answered STALE_REF. The clock goes on to the completion's time (log entry 4), and the input is log entry
15's. -/
def Obligations.DirectCompletionsAnswer : Prop :=
  (∀ (s : State) (input : Int) (j : DirectJob) (ch : ChannelNo) (g : Gain) (due : Nat), s.rstAsserted = false →
     s.frontEnd.converter = .sampling (.direct j ch g) due →
     let raw := g.reading input
     let freed : State := { s with now := max s.now due }.setFrontEnd {
       converter := .idle, queue := s.frontEnd.queue
       openSel := if raw = 0 ∨ raw = 16383 then none else s.frontEnd.openSel }
     (∀ k ch' g', j.target = .convert ch' g' → j.disposition = .answer → s.Waits j.port j.tag k →
       exec (.conversionComplete input) s = .next (freed.served j.port j.tag k .ok
         [byte (raw.toNat / 256), byte (raw.toNat % 256),
           if raw = 0 ∨ raw = 16383 then 1 else 0]).updateAttention) ∧
     (j.disposition = .discard → exec (.conversionComplete input) s = .next freed.updateAttention)) ∧
  (∀ (s : State) (input : Int) (j : DirectJob) (i : SlotNo) (gen : Generation) (ch : ChannelNo) (g : Gain)
     (due : Nat) (k : Byte), s.rstAsserted = false → WaitingLaw s →
     s.frontEnd.converter = .sampling (.direct j ch g) due → j.target = .sample i gen → j.disposition = .answer →
     s.Waits j.port j.tag k →
     let raw := g.reading input
     let freed : State := { s with now := max s.now due }.setFrontEnd {
       converter := .idle, queue := s.frontEnd.queue
       openSel := if raw = 0 ∨ raw = 16383 then none else s.frontEnd.openSel }
     (s.names i gen = false ∨ (s.slot i).cfg.channel ≠ ch ∨ (s.slot i).cfg.gain ≠ g →
       exec (.conversionComplete input) s = .next (freed.served j.port j.tag k .staleRef []).updateAttention) ∧
     (s.names i gen = true → (s.slot i).cfg.channel = ch → (s.slot i).cfg.gain = g →
       let u := (freed.applySample i raw).serveWaits
       exec (.conversionComplete input) s = .next (u.served j.port j.tag k .ok
           ([byte (raw.toNat / 256), byte (raw.toNat % 256)] ++ bytes32 (scaleValue (s.slot i).cfg.scale raw) ++
             [if raw = 0 ∨ raw = 16383 then 2 else 1, (u.slot i).condition.code])).updateAttention ∧
         s.AppliesTo i raw u ∧ u.frontEnd = freed.frontEnd ∧ u.classes = s.classes))

/-- R58, R65, R88, R89: the completion of a class job, of a RUNNING class or a STOPPING one, hands the sample to the
evaluator, which applies it where the slot is DEFINED with the job's generation, channel and gain and otherwise leaves
every point's record as it was but for the stale timers a class that stops stops; the converter is IDLE and the class's
job is over. R58, R59, R63, R66, R125: the cursor moves on unless the removed mark keeps it; a RUNNING class then posts
its next entry's job or completes its pass, and a STOPPING class reaches STOPPED, with the stale timers of its points
stopped; last, the waits are served. The clock goes on to the completion's time (log entry 4), and the input is log
entry 15's. -/
def Obligations.ClassCompletionsMoveThePass : Prop :=
  ∀ (s : State) (input : Int) (c : ClassNo) (j : ScanJob) (due : Nat), s.rstAsserted = false →
    s.frontEnd.converter = .sampling (.scan c j) due →
    let raw := j.gain.reading input
    let freed : State := { s with now := max s.now due }.setFrontEnd {
      converter := .idle, queue := s.frontEnd.queue
      openSel := if raw = 0 ∨ raw = 16383 then none else s.frontEnd.openSel }
    let applies := s.names j.slot j.gen = true ∧ (s.slot j.slot).cfg.channel = j.channel ∧
      (s.slot j.slot).cfg.gain = j.gain
    let v := if applies then freed.applySample j.slot raw else freed
    let cursor := if (s.cls c).removedMark then (s.cls c).cursor else (s.cls c).cursor + 1
    (applies → s.AppliesTo j.slot raw v) ∧
    ((s.cls c).state = .running → (s.cls c).list.length ≤ cursor → exec (.conversionComplete input) s = .next
      (v.setCls c { s.cls c with
        state := .waiting, cursor := cursor, job := none, removedMark := false }).serveWaits.updateAttention) ∧
    (∀ e, (s.cls c).state = .running → (s.cls c).list[cursor]? = some e → exec (.conversionComplete input) s = .next
      (v.setCls c { s.cls c with
        cursor := cursor, removedMark := false
        job := some {
          phase := .posted
          job := {
            slot := e.slot, gen := e.gen
            channel := (s.slot e.slot).cfg.channel
            gain := (s.slot e.slot).cfg.gain } } }).serveWaits.updateAttention) ∧
    ((s.cls c).state = .stopping → exec (.conversionComplete input) s = .next
      ((v.setCls c { s.cls c with
          state := .stopped, periodTimer := none, cursor := 0, removedMark := false, job := none }).withSlots fun i =>
        if ∃ e ∈ (s.cls c).list, e.slot = i then { v.slot i with staleTimer := none }
        else v.slot i).serveWaits.updateAttention) ∧
    ((s.cls c).state = .running ∨ (s.cls c).state = .stopping →
      ∃ u : State, exec (.conversionComplete input) s = .next u.updateAttention ∧ u.frontEnd = freed.frontEnd ∧
        (∀ d, d ≠ c → u.cls d = s.cls d) ∧
        (applies → (s.cls c).state = .running → s.AppliesTo j.slot raw u) ∧
        (¬applies → ((s.cls c).state = .running → ∀ i, u.slot i = s.slot i) ∧
          (∀ i, { u.slot i with staleTimer := (s.slot i).staleTimer } = s.slot i) ∧
          u.raiseSeq = s.raiseSeq ∧ u.actions = s.actions ∧ u.outputs = s.outputs ∧
          (ServedLaw s → u.notices = s.notices ∧ u.waits = s.waits ∧ ∀ p, u.port p = s.port p)))

/-! ## Condition evaluation (R6, R87 to R108) -/

/-- R70: the reading of an input at a gain rises with the input, in the range 0 to 16383. An input of a whole number of G1
readings reads as that number times the gain until the end of the range, so that G4 gives four times the reading of G1;
the ranges of G4, G16 and G64 are a quarter, a sixteenth and a sixty-fourth of G1's; of an input between two steps the
lower is read (log entry 15). R6, R37: the value is the raw reading where there is no scale, and otherwise the offset
plus the floor of raw times span over 16384, formed exactly and saturated to the signed 32-bit range. -/
def Obligations.ValueIsScaledExactly : Prop :=
  (∀ g : Gain, (∀ x y : Int, x ≤ y → (g.reading x).toNat ≤ (g.reading y).toNat) ∧
    (∀ n : Nat, (g.reading (64 * n)).toNat = min 16383 ((match g with
      | .g1 => 1
      | .g4 => 4
      | .g16 => 16
      | .g64 => 64) * n)) ∧
    (∀ x : Int, (g.reading x = 16383 ↔ 16383 * 64 ≤ x * (match g with
        | .g1 => 1
        | .g4 => 4
        | .g16 => 16
        | .g64 => 64)) ∧ (x ≤ 0 → g.reading x = 0)) ∧
    (∀ raw : RawReading, ∃ x, g.reading x = raw)) ∧
  (∀ x : Int, Gain.g4.reading x = 16383 ∨ (Gain.g4.reading x).toNat / 4 = (Gain.g1.reading x).toNat) ∧
  (∀ raw : RawReading, (scaleValue none raw).toNat = raw.toNat) ∧
  (∀ (sc : Scale) (raw : RawReading), ∃ q r : Int, (raw.toNat : Int) * sc.span.toInt = 16384 * q + r ∧ 0 ≤ r ∧
    r < 16384 ∧ (scaleValue (some sc) raw).toInt = max (-2147483648) (min 2147483647 (sc.offset.toInt + q)))

/-- R93: the raw candidate is the condition of the first test that holds, of HIHI, HI, LOLO and LO in that order, and
NORMAL where none does; an absent limit takes no part, a value equal to a limit is beyond it, and under the limit check
no value meets a high test and a low test at once. -/
def Obligations.RawCandidateIsTheFirstTest : Prop :=
  ∀ (c : PointConfig) (v : Word32),
    let above (l : Option Word32) : Prop := ∃ x, l = some x ∧ x.toInt ≤ v.toInt
    let below (l : Option Word32) : Prop := ∃ x, l = some x ∧ v.toInt ≤ x.toInt
    (above c.hihi → rawCandidate c v = .hihi) ∧
    (¬above c.hihi → above c.hi → rawCandidate c v = .hi) ∧
    (¬above c.hihi → ¬above c.hi → below c.lolo → rawCandidate c v = .lolo) ∧
    (¬above c.hihi → ¬above c.hi → ¬below c.lolo → below c.lo → rawCandidate c v = .lo) ∧
    (¬above c.hihi → ¬above c.hi → ¬below c.lolo → ¬below c.lo → rawCandidate c v = .normal) ∧
    (limitCheck c = true → ¬((above c.hihi ∨ above c.hi) ∧ (below c.lolo ∨ below c.lo)))

/-- R95: a point leaves HI or HIHI only below that limit minus the deadband, and LO or LOLO only above that limit plus it,
both formed exactly, so that a threshold outside the signed 32-bit range is never passed; and under the limit check a
value whose raw candidate lies on the other side of NORMAL always passes. -/
def Obligations.DeadbandHoldsTheCondition : Prop :=
  ∀ (c : PointConfig) (v l : Word32),
    (∀ x, x = Condition.hi ∨ x = .hihi → limitOf c x = some l →
      (clearsDeadband c x v = true ↔ v.toInt < l.toInt - c.deadband.toNat) ∧
      (l.toInt - c.deadband.toNat ≤ -2147483648 → clearsDeadband c x v = false) ∧
      (limitCheck c = true → rawCandidate c v = .lo ∨ rawCandidate c v = .lolo → clearsDeadband c x v = true)) ∧
    (∀ x, x = Condition.lo ∨ x = .lolo → limitOf c x = some l →
      (clearsDeadband c x v = true ↔ l.toInt + c.deadband.toNat < v.toInt) ∧
      (2147483647 ≤ l.toInt + c.deadband.toNat → clearsDeadband c x v = false) ∧
      (limitCheck c = true → rawCandidate c v = .hi ∨ rawCandidate c v = .hihi → clearsDeadband c x v = true))

/-- R94, R96: the candidate is the raw candidate from NORMAL, on a move to the more severe condition of the same side, and
where the value clears the deadband of the condition's own limit; otherwise it is the condition. -/
def Obligations.CandidateNeedsTheDeadband : Prop :=
  ∀ (c : PointConfig) (v : Word32),
    candidate c .normal v = rawCandidate c v ∧
    (rawCandidate c v = .hihi → candidate c .hi v = .hihi) ∧
    (rawCandidate c v = .lolo → candidate c .lo v = .lolo) ∧
    (∀ x, x ≠ .normal → ¬(x = .hi ∧ rawCandidate c v = .hihi) → ¬(x = .lo ∧ rawCandidate c v = .lolo) →
      candidate c x v = if clearsDeadband c x v = true then rawCandidate c v else x) ∧
    (limitCheck c = true → ∀ x, (limitOf c x).isSome = true → rawCandidate c v = x → candidate c x v = x)

/-- R97, R98: a candidate equal to the condition clears the pending state; another one is counted, from 1 where it is not
the pending candidate, and when the count reaches confirm the pending state is cleared and the condition changes to the
candidate, with the effects of a condition change. -/
def Obligations.ConfirmationCountsSamples : Prop :=
  ∀ (s : State) (i : SlotNo) (x : Condition),
    let n := if (s.slot i).pendingCandidate = some x then (s.slot i).pendingCount + 1 else 1
    let cleared := s.setSlot i { s.slot i with pendingCandidate := none, pendingCount := 0 }
    (x = (s.slot i).condition → s.confirm i x = cleared) ∧
    (x ≠ (s.slot i).condition → n ≠ (s.slot i).cfg.confirm → s.confirm i x =
      s.setSlot i { s.slot i with pendingCandidate := some x, pendingCount := n }) ∧
    (x ≠ (s.slot i).condition → n = (s.slot i).cfg.confirm → s.confirm i x = cleared.changeCondition i x ∧
      { (s.confirm i x).slot i with link := (s.slot i).link } =
        { s.slot i with condition := x, pendingCandidate := none, pendingCount := 0 })

/-- R98 to R101, R143 to R147: entry into an abnormal condition raises ENTERED with it where no linked action is invoked.
An invocation blocked by a pin raises ENTERED and then ACTION_BLOCKED; one that drives raises ENTERED unless the
action suppresses it, and then ACTION_SPENT where the drive spends an action that notifies it. R102, R103, R116,
R148: a return to NORMAL under FOLLOW withdraws a PENDING notice of cause ENTERED, or discards a DELIVERED notice's
follow-on of that cause; where neither happens and notify clear is yes it raises CLEARED. The linked action is then
offered a restore. -/
def Obligations.ConditionChangesHaveTheirEffects : Prop :=
  (∀ (s : State) (i : SlotNo) (x : Condition), x ≠ .normal →
     let u := s.setSlot i { s.slot i with condition := x }
     (((s.slot i).link = none ∨
         ∃ a, (s.slot i).link = some a ∧ ((s.action a).state ≠ .armed ∨ (s.action a).triggers.has x = false)) →
       s.changeCondition i x = u.raise i .entered x) ∧
     (∀ a, (s.slot i).link = some a → (s.action a).state = .armed → (s.action a).triggers.has x = true →
       ((s.output (s.action a).output).pin ≠ none →
         s.changeCondition i x = (u.raise i .entered x).raise i .actionBlocked x) ∧
       ((s.output (s.action a).output).pin = none →
         let driven := (u.setOutput (s.action a).output
           ((s.output (s.action a).output).driven a (s.action a) i)).useBudget a
         let told := if (s.action a).suppress then driven else driven.raise i .entered x
         s.changeCondition i x =
           if (s.action a).budget ≤ 1 ∧ (s.action a).notifySpent = true then told.raise i .actionSpent x else told))) ∧
  (∀ (s : State) (i : SlotNo),
     let u := s.setSlot i { s.slot i with condition := .normal }
     let offered (v : State) : State :=
       match (s.slot i).link with
       | none => v
       | some a => v.offerRestore a i
     (∀ n, (s.slot i).cfg.policy = .follow → s.notice i = some n → n.state = .pending → n.cause = .entered →
       s.changeCondition i .normal = offered (u.setNotice i none)) ∧
     (∀ n p f, (s.slot i).cfg.policy = .follow → s.notice i = some n → n.state = .delivered p → n.followOn = some f →
       f.cause = .entered →
       s.changeCondition i .normal = offered (u.setNotice i (some { n with followOn := none }))) ∧
     (((s.slot i).cfg.policy = .latched ∨ s.notice i = none ∨
         (∃ n, s.notice i = some n ∧ ((n.state = .pending ∧ n.cause ≠ .entered) ∨
           (n.state ≠ .pending ∧ ∀ f, n.followOn = some f → f.cause ≠ .entered)))) →
       s.changeCondition i .normal =
         offered (if (s.slot i).cfg.notifyClear then u.raise i .cleared .normal else u)))

/-- R89, R90, R91: the application of a sample is its six steps in order: the live fields and the stale timer are written,
the quality's notices are settled, the candidate is found and confirmed. R92, R117: an applied sample first withdraws a
PENDING notice of cause STALE where the quality was STALE and the policy is FOLLOW, and then raises CLIPPED, with the
condition as it stands, where the quality has become CLIPPED from another and notify quality is yes. R91: an applied
sample restarts the stale timer, with the full interval, of a point that has one and is listed in a class that is not
STOPPED, and leaves any other timer as it was. R105, R125: the expiry of a stale timer makes the quality STALE, stops the
timer and raises STALE with the point's condition, and the waits are served; raw, value, sample sequence, condition and
pending state stay. The clock goes on to the expiry's time (log entry 4). -/
def Obligations.StaleTimersAndQualityNotices : Prop :=
  (∀ (s : State) (i : SlotNo) (before : Quality),
     let w := if before = .stale ∧ (s.slot i).cfg.policy = .follow ∧
         (∃ n, s.notice i = some n ∧ n.state = .pending ∧ n.cause = .stale) then s.setNotice i none else s
     s.qualityNotices i before =
       if (s.slot i).quality = .clipped ∧ before ≠ .clipped ∧ (s.slot i).cfg.notifyQuality = true then
         w.raise i .clipped (s.slot i).condition
       else w) ∧
  (∀ (s : State) (i : SlotNo) (raw : RawReading),
     let timer :=
       if s.listedActive i = true ∧ (s.slot i).cfg.staleInterval.isSome then
         (s.slot i).cfg.staleInterval.map fun ms => s.now + ms * 1000
       else (s.slot i).staleTimer
     let value := scaleValue (s.slot i).cfg.scale raw
     s.applySample i raw =
       ((s.setSlot i { s.slot i with
         raw := raw, value := value, sampleSeq := (s.slot i).sampleSeq + 1, staleTimer := timer
         quality := if raw = 0 ∨ raw = 16383 then .clipped else .good }).qualityNotices i (s.slot i).quality).confirm i
           (candidate (s.slot i).cfg (s.slot i).condition value) ∧
     ((s.applySample i raw).slot i).staleTimer = timer) ∧
  (∀ (s : State) (i : SlotNo) (due : Nat), s.rstAsserted = false → (s.slot i).staleTimer = some due →
     exec (.staleExpiry i) s = .next
       ((({ s with now := max s.now due }.setSlot i { s.slot i with quality := .stale, staleTimer := none }).raise i .stale
         (s.slot i).condition).serveWaits).updateAttention)

/-! ## Notices (R109 to R133) -/

/-- R111 to R114: a raise makes a new PENDING notice with the next raise sequence where the point has none, folds into a
PENDING notice in place with the greater severity and its sequence kept, and is held with a DELIVERED notice as its
follow-on, which keeps the greater severity. -/
def Obligations.RaiseMakesFoldsOrHolds : Prop :=
  ∀ (s : State) (i : SlotNo) (cause : Cause) (cond : Condition),
    let sev := (s.slot i).cfg.severity
    (s.notice i = none → s.raise i cause cond =
      { s with raiseSeq := s.raiseSeq + 1 }.setNotice i (some {
        gen := (s.slot i).gen, cause := cause, condition := cond, severity := sev, seq := s.raiseSeq + 1
        count := 1, state := .pending, followOn := none })) ∧
    (∀ n, s.notice i = some n → n.state = .pending → s.raise i cause cond =
      s.setNotice i (some { n with
        cause := cause, condition := cond, severity := max n.severity sev, count := min 255 (n.count + 1) })) ∧
    (∀ n p, s.notice i = some n → n.state = .delivered p → s.raise i cause cond =
      s.setNotice i (some { n with followOn := some {
        cause := cause, condition := cond
        severity := match n.followOn with
          | none => sev
          | some f => max f.severity sev } }))

/-- R119: a notice is deliverable to a port exactly when it is PENDING, its point's route admits the port, its severity is
at least the port's threshold, and the port is ATTACHED. -/
def Obligations.DeliverableNeedsAllFour : Prop :=
  ∀ (s : State) (p : Port) (i : SlotNo) (n : Notice),
    s.deliverable p i = some n ↔
      s.notice i = some n ∧ n.state = .pending ∧
        ((s.slot i).cfg.route = .either ∨ ((s.slot i).cfg.route = .h ∧ p = .H) ∨ ((s.slot i).cfg.route = .l ∧ p = .L)) ∧
        (s.port p).threshold ≤ n.severity ∧ (s.port p).session = .attached

/-- R122, R123: NOTICE.FETCH is answered NONE where nothing is deliverable to its port; otherwise it delivers a notice of
the highest severity and, among those, of the lowest raise sequence, and is answered OK with it. -/
def Obligations.FetchDeliversTheBest : Prop :=
  ∀ (s : State) (p : Port) (t : Tag), s.Ready p t →
    ((∀ i, s.deliverable p i = none) →
      exec (.noticeFetch p t) s = .next (s.answered p t 0x50 .none [])) ∧
    ((∃ i, s.deliverable p i ≠ none) → ∃ i n, s.IsBest p i n ∧
      exec (.noticeFetch p t) s = .next
        ((s.setNotice i (some { n with state := .delivered p })).answered p t 0x50 .ok
          ([byte i.val, n.gen, n.cause.code, n.condition.code, byte n.severity.val] ++ bytes32 n.seq ++
            [byte n.count])))

/-- R124: NOTICE.WAIT is answered BAD_ARGUMENT for a timeout of 0 and BUSY where its port already waits; otherwise it
fetches at once where it can, and else waits at the end of the list with its timeout running from now. R127: the
timeout of a port's waiting NOTICE.WAIT takes its record off the list and answers it NONE; no notice is touched. -/
def Obligations.WaitFetchesWaitsOrTimesOut : Prop :=
  (∀ (s : State) (p : Port) (t : Tag), s.Ready p t →
     exec (.noticeWait p t 0) s = .next (s.answered p t 0x51 .badArgument []) ∧
     (∀ n : Word16, n ≠ 0 →
       ((∃ w ∈ s.waits, w.port = p) → exec (.noticeWait p t n) s = .next (s.answered p t 0x51 .busy [])) ∧
       ((∀ w ∈ s.waits, w.port ≠ p) →
         ((∀ i, s.deliverable p i = none) → exec (.noticeWait p t n) s = .next
           ((s.setWaits (s.waits ++ [{ port := p, tag := t, due := s.now + n.toNat * 1000 }])).accepted p t 0x51)) ∧
         ((∃ i, s.deliverable p i ≠ none) → ∃ i m, s.IsBest p i m ∧ exec (.noticeWait p t n) s = .next
           ((s.setNotice i (some { m with state := .delivered p })).answered p t 0x51 .ok (noticeBytes i m)))))) ∧
  (∀ (s : State) (w : WaitRec) (k : Byte), s.rstAsserted = false → w ∈ s.waits → (s.waits.map WaitRec.port).Nodup →
     s.Waits w.port w.tag k →
     exec (.waitTimeout w.port) s = .next
       (({ s with now := max s.now w.due }.setWaits (s.waits.filter fun v => v.port != w.port)).served w.port w.tag k
         .none []).updateAttention)

/-- R121, R125, R126: serving the waits, in the order of their acceptance, delivers to each the best notice deliverable to
its port, answers it and takes it off the list, and passes over a wait to whose port nothing is deliverable; afterwards
nothing is deliverable to a port that still waits. -/
def Obligations.WaitsAreServedInOrder : Prop :=
  (∀ (s : State), (s.waits.map WaitRec.port).Nodup → ∀ w ∈ s.serveWaits.waits, ∀ i, s.serveWaits.deliverable w.port i = none) ∧
  (∀ s : State, (∀ w ∈ s.waits, ∀ i, s.deliverable w.port i = none) → s.serveWaits = s) ∧
  (∀ (s : State) (w : WaitRec) (rest : List WaitRec) (k : Byte), s.waits = w :: rest →
    (s.waits.map WaitRec.port).Nodup → s.Waits w.port w.tag k → (∃ i, s.deliverable w.port i ≠ none) →
    ∃ i n, s.IsBest w.port i n ∧ s.serveWaits =
      (((s.setNotice i (some { n with state := .delivered w.port })).setWaits rest).served w.port w.tag k .ok
        (noticeBytes i n)).serveWaits) ∧
  (∀ (s : State) (v w : WaitRec) (k : Byte), s.waits = [v, w] → v.port ≠ w.port →
    (∀ i, s.deliverable v.port i = none) → s.Waits w.port w.tag k → (∃ i, s.deliverable w.port i ≠ none) →
    ∃ i n, s.IsBest w.port i n ∧ s.serveWaits =
      ((s.setNotice i (some { n with state := .delivered w.port })).setWaits [v]).served w.port w.tag k .ok
        (noticeBytes i n))

/-- R111, R129, R130: NOTICE.ACK of a notice delivered to this port removes it, or, where it holds a follow-on, makes it
PENDING anew with the follow-on's fields, count 1 and the next raise sequence, and serves the waits; a point with no
notice delivered to this port gives NOT_DELIVERED. -/
def Obligations.AckRemovesOrRenews : Prop :=
  ∀ (s : State) (p : Port) (t : Tag) (i : SlotNo) (g : Generation), s.Ready p t → s.names i g = true →
    ((∀ n, s.notice i = some n → n.state ≠ .delivered p) →
      exec (.noticeAck p t (byte i.val) g) s = .next (s.answered p t 0x52 .notDelivered [])) ∧
    (∀ n, s.notice i = some n → n.state = .delivered p → n.followOn = none →
      exec (.noticeAck p t (byte i.val) g) s = .next ((s.setNotice i none).answered p t 0x52 .ok [])) ∧
    (∀ n f, s.notice i = some n → n.state = .delivered p → n.followOn = some f → WaitingLaw s →
      exec (.noticeAck p t (byte i.val) g) s = .next
        (({ s with raiseSeq := s.raiseSeq + 1 }.setNotice i (some {
          gen := n.gen, cause := f.cause, condition := f.condition, severity := f.severity, seq := s.raiseSeq + 1
          count := 1, state := .pending, followOn := none })).serveWaits.answered p t 0x52 .ok []))

/-! ## Actions (R134 to R150) -/

/-- R136, R187, R189: ACTION.CREATE arms the lowest FREE record with the configuration and budget given and no links; it
is refused BAD_ARGUMENT for an operand out of range, then NO_FREE_ACTION. R140, R141, R142: ACTION.REARM arms an
ARMED or SPENT action with the budget given and ACTION.FREE returns an unlinked one to its reset values, each
dropping the saved values of the channels it last drove; a rearm of a FREE record gives ACTION_NOT_ARMED, a free of a
linked one IN_USE, and a free of a FREE one OK with no change. ACTION.READ answers the eight bytes of the record and
changes nothing. -/
def Obligations.ActionRecordsAreMadeAndFreed : Prop :=
  (∀ (s : State) (p : Port) (t : Tag), s.Ready p t →
     (∀ (m o b f : Byte) (d : Word16),
       (m = 0 ∨ 15 < m.toNat ∨ 4 ≤ o.toNat ∨ 4095 < d.toNat ∨ b = 0 ∨ 7 < f.toNat) →
       exec (.actionCreate p t m o d b f) s = .next (s.answered p t 0x60 .badArgument [])) ∧
     (∀ (m b f : Byte) (o : OutputNo) (d : Level), m ≠ 0 → m.toNat ≤ 15 → b ≠ 0 → f.toNat ≤ 7 →
       ((∀ a, (s.action a).state ≠ .free) →
         exec (.actionCreate p t m (byte o.val) (d.setWidth 16) b f) s = .next
           (s.answered p t 0x60 .noFreeAction [])) ∧
       (∀ a : ActionNo, (s.action a).state = .free → (∀ c < a, (s.action c).state ≠ .free) →
         exec (.actionCreate p t m (byte o.val) (d.setWidth 16) b f) s = .next
           ((s.setAction a {
             state := .armed, output := o, drive := d, budget := b.toNat, linkCount := 0
             triggers := {
               lo := m.getLsbD 0, lolo := m.getLsbD 1, hi := m.getLsbD 2, hihi := m.getLsbD 3 }
             suppress := f.getLsbD 0, notifySpent := f.getLsbD 1, restore := f.getLsbD 2 }).answered p t 0x60 .ok
               [byte a.val])))) ∧
  (∀ (s : State) (p : Port) (t : Tag), s.Ready p t →
     let dropped (a : ActionNo) (r : ActionRec) : State := (s.setAction a r).withOutputs fun o =>
       if ∃ i, (s.output o).lastWriter = .action a i then { s.output o with saved := none } else s.output o
     (∀ b n : Byte, 16 ≤ b.toNat ∨ n = 0 →
       exec (.actionRearm p t b n) s = .next (s.answered p t 0x63 .badArgument [])) ∧
     (∀ b : Byte, 16 ≤ b.toNat → exec (.actionFree p t b) s = .next (s.answered p t 0x64 .badArgument []) ∧
       exec (.actionRead p t b) s = .next (s.answered p t 0x65 .badArgument [])) ∧
     (∀ (a : ActionNo) (n : Byte), n ≠ 0 →
       ((s.action a).state = .free →
         exec (.actionRearm p t (byte a.val) n) s = .next (s.answered p t 0x63 .actionNotArmed [])) ∧
       ((s.action a).state ≠ .free → exec (.actionRearm p t (byte a.val) n) s = .next
         ((dropped a { s.action a with state := .armed, budget := n.toNat }).answered p t 0x63 .ok []))) ∧
     (∀ a : ActionNo,
       ((s.action a).state = .free →
         exec (.actionFree p t (byte a.val)) s = .next (s.answered p t 0x64 .ok [])) ∧
       ((s.action a).state = .armed → (s.action a).linkCount ≠ 0 →
         exec (.actionFree p t (byte a.val)) s = .next (s.answered p t 0x64 .inUse [])) ∧
       ((s.action a).state = .spent ∨ ((s.action a).state = .armed ∧ (s.action a).linkCount = 0) →
         exec (.actionFree p t (byte a.val)) s = .next
           ((dropped a {
             state := .free, triggers := ⟨false, false, false, false⟩, output := 0, drive := 0, budget := 0
             suppress := false, notifySpent := false, restore := false, linkCount := 0 }).answered p t 0x64 .ok [])) ∧
       exec (.actionRead p t (byte a.val)) s = .next (s.answered p t 0x65 .ok
         (let r := s.action a
          [r.state.code,
            byte ((if r.triggers.lo then 1 else 0) + (if r.triggers.lolo then 2 else 0) +
              (if r.triggers.hi then 4 else 0) + (if r.triggers.hihi then 8 else 0)),
            byte r.output.val, byte (r.drive.toNat / 256), byte r.drive.toNat, byte r.budget,
            byte ((if r.suppress then 1 else 0) + (if r.notifySpent then 2 else 0) + (if r.restore then 4 else 0)),
            byte r.linkCount]))))

/-- R41, R137, R138: ACTION.LINK and ACTION.UNLINK are refused CLAIMED where the other port holds the claim, then
ACTION_NOT_ARMED and LINKED, or NOT_LINKED; otherwise the link is set or cleared with the action's count, and an unlink
drops the saved value of each channel the action last drove for the slot. -/
def Obligations.LinksMoveWithTheirCount : Prop :=
  ∀ (s : State) (p : Port) (t : Tag) (a : ActionNo) (i : SlotNo) (g : Generation), s.Ready p t →
    s.names i g = true →
    (∀ b : Byte, 16 ≤ b.toNat → exec (.actionLink p t b (byte i.val) g) s = .next
      (s.answered p t 0x61 .badArgument [])) ∧
    ((s.slot i).claim.map Claim.owner = some p.other →
      exec (.actionLink p t (byte a.val) (byte i.val) g) s = .next (s.answered p t 0x61 .claimed []) ∧
      exec (.actionUnlink p t (byte i.val) g) s = .next (s.answered p t 0x62 .claimed [])) ∧
    ((s.slot i).claim.map Claim.owner ≠ some p.other →
      ((s.action a).state ≠ .armed →
        exec (.actionLink p t (byte a.val) (byte i.val) g) s = .next (s.answered p t 0x61 .actionNotArmed [])) ∧
      ((s.action a).state = .armed → (s.slot i).link ≠ none →
        exec (.actionLink p t (byte a.val) (byte i.val) g) s = .next (s.answered p t 0x61 .linked [])) ∧
      ((s.action a).state = .armed → (s.slot i).link = none →
        exec (.actionLink p t (byte a.val) (byte i.val) g) s = .next
          (((s.setSlot i { s.slot i with link := some a }).setAction a { s.action a with
            linkCount := (s.action a).linkCount + 1 }).answered p t 0x61 .ok
              [byte a.val, byte ((s.action a).linkCount + 1)])) ∧
      ((s.slot i).link = none →
        exec (.actionUnlink p t (byte i.val) g) s = .next (s.answered p t 0x62 .notLinked [])) ∧
      ((s.slot i).link = some a →
        exec (.actionUnlink p t (byte i.val) g) s = .next
          ((((s.setSlot i { s.slot i with link := none }).setAction a { s.action a with
            linkCount := (s.action a).linkCount - 1 }).withOutputs fun o =>
              if (s.output o).lastWriter = .action a i then { s.output o with saved := none }
              else s.output o).answered p t 0x62 .ok [byte a.val, byte ((s.action a).linkCount - 1)])))

/-- R144, R145, R146: a drive writes the drive value and names the action and the slot as last writer, keeps the saved
value of its own run of drives or saves the channel's value where the restore flag is set and drops it where it is
clear; it uses one unit of budget, and the last unit makes the action SPENT and clears every link to it. R148: a
restore offer puts the saved value back, with last writer RESTORE, where the last writer is the action with the
point's slot and the channel is not pinned; under a pin it drops the saved value alone; otherwise nothing changes. -/
def Obligations.DrivesSaveAndRestoresUndo : Prop :=
  (∀ (s : State) (a : ActionNo) (i : SlotNo), (s.output (s.action a).output).pin = none →
     let o := s.output (s.action a).output
     (s.invoke a i).1.output (s.action a).output = { o with
       value := (s.action a).drive, lastWriter := .action a i
       saved :=
         if (s.action a).restore then
           (if o.saved ≠ none ∧ (∃ j, o.lastWriter = .action a j) then o.saved else some o.value)
         else none } ∧
     (∀ u, u ≠ (s.action a).output → (s.invoke a i).1.output u = s.output u) ∧
     (2 ≤ (s.action a).budget →
       (s.invoke a i).1.action a = { s.action a with budget := (s.action a).budget - 1 } ∧
       (s.invoke a i).1.slots = s.slots) ∧
     ((s.action a).budget ≤ 1 →
       (s.invoke a i).1.action a = { s.action a with state := .spent, budget := 0, linkCount := 0 } ∧
       ∀ j, (s.invoke a i).1.slot j =
         if (s.slot j).link = some a then { s.slot j with link := none } else s.slot j) ∧
     (∀ b, b ≠ a → (s.invoke a i).1.action b = s.action b) ∧
     (s.invoke a i).1.notices = s.notices ∧ (s.invoke a i).1.classes = s.classes) ∧
  (∀ (s : State) (a : ActionNo) (i : SlotNo),
     let u := (s.action a).output
     (∀ v, (s.output u).lastWriter = .action a i → (s.output u).saved = some v → (s.output u).pin = none →
       s.offerRestore a i = s.setOutput u { s.output u with value := v, lastWriter := .restore, saved := none }) ∧
     (∀ v, (s.output u).lastWriter = .action a i → (s.output u).saved = some v → (s.output u).pin ≠ none →
       s.offerRestore a i = s.setOutput u { s.output u with saved := none }) ∧
     ((s.output u).lastWriter ≠ .action a i ∨ (s.output u).saved = none → s.offerRestore a i = s))

/-! ## Output channels (R151 to R162) -/

/-- R151, R152, R153: OUTPUT.WRITE sets the value, names this port as last writer and drops the saved value, on a channel
the other port has not pinned, and AOUTn follows; it is refused BAD_ARGUMENT out of range, then PINNED. R155, R156:
OUTPUT.PIN takes or keeps the pin of a channel the other port does not hold and answers the value held and its
writer; OUTPUT.UNPIN gives up this port's pin and nothing else, with no fallback. The other port's pin gives PINNED
and NOT_PINNED. -/
def Obligations.WriteAndPinTakeTheChannel : Prop :=
  (∀ (s : State) (p : Port) (t : Tag), s.Ready p t →
     (∀ (ch : Byte) (v : Word16), 4 ≤ ch.toNat ∨ 4095 < v.toNat →
       exec (.outputWrite p t ch v) s = .next (s.answered p t 0x70 .badArgument [])) ∧
     (∀ (o : OutputNo) (v : Level), (s.output o).pin = some p.other →
       exec (.outputWrite p t (byte o.val) (v.setWidth 16)) s = .next (s.answered p t 0x70 .pinned [])) ∧
     (∀ (o : OutputNo) (v : Level), (s.output o).pin ≠ some p.other →
       exec (.outputWrite p t (byte o.val) (v.setWidth 16)) s = .next
         ((s.setOutput o { s.output o with value := v, lastWriter := .port p, saved := none }).answered p t 0x70 .ok []) ∧
       (s.setOutput o { s.output o with value := v, lastWriter := .port p, saved := none }).aout o = v)) ∧
  (∀ (s : State) (p : Port) (t : Tag), s.Ready p t →
     (∀ ch : Byte, 4 ≤ ch.toNat →
       exec (.outputPin p t ch) s = .next (s.answered p t 0x71 .badArgument []) ∧
       exec (.outputUnpin p t ch) s = .next (s.answered p t 0x72 .badArgument [])) ∧
     (∀ o : OutputNo,
       ((s.output o).pin = some p.other →
         exec (.outputPin p t (byte o.val)) s = .next (s.answered p t 0x71 .pinned [])) ∧
       ((s.output o).pin ≠ some p.other →
         exec (.outputPin p t (byte o.val)) s = .next
           ((s.setOutput o { s.output o with pin := some p }).answered p t 0x71 .ok
             ([byte ((s.output o).value.toNat / 256), byte ((s.output o).value.toNat % 256)] ++
               (s.output o).lastWriter.bytes))) ∧
       ((s.output o).pin = some p →
         exec (.outputUnpin p t (byte o.val)) s = .next
           ((s.setOutput o { s.output o with pin := none }).answered p t 0x72 .ok [])) ∧
       ((s.output o).pin ≠ some p →
         exec (.outputUnpin p t (byte o.val)) s = .next (s.answered p t 0x72 .notPinned []))))

/-- R158, R159, R187: OUTPUT.FALLBACK sets the fallback or makes it absent, with the value then ignored, and changes nothing
else of the channel; it is refused BAD_ARGUMENT out of range, then PINNED. OUTPUT.READ answers the twelve bytes of the record
and changes nothing. -/
def Obligations.FallbackAndReadOfOutputs : Prop :=
  ∀ (s : State) (p : Port) (t : Tag), s.Ready p t →
    (∀ (ch pr : Byte) (v : Word16), 4 ≤ ch.toNat ∨ 1 < pr.toNat ∨ (pr = 1 ∧ 4095 < v.toNat) →
      exec (.outputFallback p t ch pr v) s = .next (s.answered p t 0x73 .badArgument [])) ∧
    (∀ ch : Byte, 4 ≤ ch.toNat → exec (.outputRead p t ch) s = .next (s.answered p t 0x74 .badArgument [])) ∧
    (∀ (o : OutputNo) (v : Level) (w : Word16),
      ((s.output o).pin = some p.other →
        exec (.outputFallback p t (byte o.val) 1 (v.setWidth 16)) s = .next (s.answered p t 0x73 .pinned []) ∧
        exec (.outputFallback p t (byte o.val) 0 w) s = .next (s.answered p t 0x73 .pinned [])) ∧
      ((s.output o).pin ≠ some p.other →
        exec (.outputFallback p t (byte o.val) 1 (v.setWidth 16)) s = .next
          ((s.setOutput o { s.output o with fallback := some v }).answered p t 0x73 .ok []) ∧
        exec (.outputFallback p t (byte o.val) 0 w) s = .next
          ((s.setOutput o { s.output o with fallback := none }).answered p t 0x73 .ok [])) ∧
      exec (.outputRead p t (byte o.val)) s = .next (s.answered p t 0x74 .ok
        (let r := s.output o
         [byte (r.value.toNat / 256), byte r.value.toNat] ++ r.lastWriter.bytes ++
           (match r.saved with
            | none => ([0, 0, 0] : List Byte)
            | some l => [1, byte (l.toNat / 256), byte l.toNat]) ++
           [match r.pin with
            | none => (0 : Byte)
            | some .H => 1
            | some .L => 2] ++
           (match r.fallback with
            | none => ([0, 0, 0] : List Byte)
            | some l => [1, byte (l.toNat / 256), byte l.toNat]))))

/-! ## The encoding of requests (R165, R166, R185 to R189) -/

/-- R165, R166, R185, R187, R188: the frame of any request, with every operand at every value its bytes have, is read back
as that request from a SUBMIT that clocks it in, whatever is clocked in after it. -/
def Obligations.FramesReadBackAsTheirRequests : Prop :=
  ∀ (i : Instr) (p : Port) (frame extra : List Byte), i.carrier = some p → encodeFrame i = some frame →
    decodeSubmit p (frame ++ extra) = i

/-! ## The laws of the device -/

/-- The reset state obeys every law of the device. -/
def Obligations.ResetObeysTheLaws : Prop :=
  KeyLaw State.reset ∧ FreeSlotLaw State.reset ∧ ClaimLaw State.reset ∧ ConfigLaw State.reset ∧
    PendingLaw State.reset ∧ ConditionLaw State.reset ∧ SchedulerLaw State.reset ∧ StaleTimerLaw State.reset ∧
    PeriodTimerLaw State.reset ∧
    NoticeLaw State.reset ∧ ActionLaw State.reset ∧ PinLaw State.reset ∧ PortLaw State.reset ∧
    WaitingLaw State.reset ∧ ServedLaw State.reset ∧ AttentionLaw State.reset ∧ HeldLaw State.reset

/-- R3: every step keeps the key map's law. -/
def Obligations.StepsKeepTheKeyMap : Prop :=
  ∀ s t : State, KeyLaw s → step s = .next t → KeyLaw t

/-- R1, R22, R27, R109, R122, R151: every step keeps a FREE slot's record clear, every claim on a DEFINED point with an
ATTACHED owner, every notice on a DEFINED point of its generation and delivered only to an ATTACHED port, and every pin
with an ATTACHED owner. -/
def Obligations.StepsKeepOwnersAttached : Prop :=
  ∀ s t : State, FreeSlotLaw s → step s = .next t →
    FreeSlotLaw t ∧ (ClaimLaw s → ClaimLaw t) ∧ (NoticeLaw s → NoticeLaw t) ∧ (PinLaw s → PinLaw t)

/-- R5, R9, R27, R94, R97: every step keeps each configuration in range and past the limit check, the pending count 0
exactly with no pending candidate and otherwise below confirm, and the limit of each abnormal condition present. -/
def Obligations.StepsKeepConfigurationsLegal : Prop :=
  ∀ s t : State, ConfigLaw s → PendingLaw s → ConditionLaw s → step s = .next t →
    ConfigLaw t ∧ PendingLaw t ∧ ConditionLaw t

/-- R45, R47, R50, R52, R56, R57, R104: every step keeps each point in at most one entry and each entry on a DEFINED point,
each class's state, cursor, job and mark in agreement with each other and with the converter, a stale timer running only
on a point that has an interval and is listed in a class that is not STOPPED, with no more than the interval left, and a
period timer running exactly on a PERIODIC class that is not STOPPED. -/
def Obligations.StepsKeepTheScheduler : Prop :=
  ∀ s t : State, SchedulerLaw s → FreeSlotLaw s → step s = .next t →
    SchedulerLaw t ∧ (StaleTimerLaw s → StaleTimerLaw t) ∧ (PeriodTimerLaw s → PeriodTimerLaw t)

/-- R134, R135: every step keeps each action's link count equal to the number of points linked to it, and only an ARMED
action with links or a budget. -/
def Obligations.StepsKeepLinkCounts : Prop :=
  ∀ s t : State, FreeSlotLaw s → ActionLaw s → step s = .next t → ActionLaw t

/-- R71, R76, R121, R163, R171, R172, R177: every step keeps at most four open tags on a port, all distinct, each answer in
the queue with its ANSWERED tag, each waiting request with its WAITING tag, what a COLLECT under way is clocking out at
the head of its slots or queue, and nothing deliverable to a port that waits. -/
def Obligations.StepsKeepTagsAndAnswersPaired : Prop :=
  ∀ s t : State, PortLaw s → WaitingLaw s → step s = .next t →
    PortLaw t ∧ WaitingLaw t ∧ (FreeSlotLaw s → ServedLaw s → ServedLaw t)

/-- R173, R182, R191: every step leaves each attention line showing what stands, a port whose PRSTn is asserted DETACHED
with no traffic, and the part at its reset values while RSTn is asserted. -/
def Obligations.StepsKeepAttentionAndHeldLines : Prop :=
  ∀ s t : State, step s = .next t → (AttentionLaw s → AttentionLaw t) ∧ (HeldLaw s → HeldLaw t)
end

