-- ==== Sys2Proof/Laws/Operands.lean ====
section
/-! SUPPORT. Each operand form, said once: it reads back what the matching byte layout writes, and it refuses exactly the
bytes out of its range (R5, R187, R189). -/

namespace Sys2Proof.Machine

/-! ## Numbered operands -/

@[simp] theorem slotOf_byte : ∀ i : SlotNo, slotOf (byte i.val) = some i := by decide

@[simp] theorem classOf_byte : ∀ c : ClassNo, classOf (byte c.val) = some c := by decide

@[simp] theorem outputOf_byte : ∀ o : OutputNo, outputOf (byte o.val) = some o := by decide

@[simp] theorem actionOf_byte : ∀ a : ActionNo, actionOf (byte a.val) = some a := by decide

@[simp] theorem tagOf_byte : ∀ t : Tag, tagOf (byte t.val) = some t := by decide

@[simp] theorem channelOf_byte : ∀ c : ChannelNo, channelOf (byte c.val) = some c := by decide

@[simp] theorem severityOf_byte : ∀ v : Severity, severityOf (byte v.val) = some v := by decide

theorem slotOf_eq_none (b : Byte) : slotOf b = none ↔ 128 ≤ b.toNat := by simp [slotOf]

theorem classOf_eq_none (b : Byte) : classOf b = none ↔ 4 ≤ b.toNat := by simp [classOf]

theorem outputOf_eq_none (b : Byte) : outputOf b = none ↔ 4 ≤ b.toNat := by simp [outputOf]

theorem actionOf_eq_none (b : Byte) : actionOf b = none ↔ 16 ≤ b.toNat := by simp [actionOf]

theorem tagOf_eq_none (b : Byte) : tagOf b = none ↔ 16 ≤ b.toNat := by simp [tagOf]

theorem channelOf_eq_none (b : Byte) : channelOf b = none ↔ 24 ≤ b.toNat := by simp [channelOf]

theorem severityOf_eq_none (b : Byte) : severityOf b = none ↔ 8 ≤ b.toNat := by simp [severityOf]

/-! ## Codes -/

@[simp] theorem gainOf_code (g : Gain) : gainOf g.code = some g := by cases g <;> rfl

@[simp] theorem policyOf_code (v : Policy) : policyOf v.code = some v := by cases v <;> rfl

@[simp] theorem routeOf_code (v : Route) : routeOf v.code = some v := by cases v <;> rfl

@[simp] theorem sourceOf_code (v : TriggerSource) : sourceOf v.code = some v := by cases v <;> rfl

@[simp] theorem yesNoOf_yesNoByte (b : Bool) : yesNoOf (yesNoByte b) = some b := by cases b <;> rfl

@[simp] theorem yesNoOf_zero : yesNoOf 0#8 = some false := rfl

@[simp] theorem yesNoOf_one : yesNoOf 1#8 = some true := rfl

theorem gainOf_eq_none : ∀ b : Byte, gainOf b = none ↔ 4 ≤ b.toNat := by decide

theorem policyOf_eq_none : ∀ b : Byte, policyOf b = none ↔ 2 ≤ b.toNat := by decide

theorem routeOf_eq_none : ∀ b : Byte, routeOf b = none ↔ 3 ≤ b.toNat := by decide

theorem sourceOf_eq_none : ∀ b : Byte, sourceOf b = none ↔ 4 ≤ b.toNat := by decide

theorem yesNoOf_eq_none : ∀ b : Byte, yesNoOf b = none ↔ 2 ≤ b.toNat := by decide

/-! ## Quantities -/

theorem confirmOf_eq (b : Byte) : confirmOf b = if 1 ≤ b.toNat ∧ b.toNat ≤ 8 then some b.toNat else none := rfl

theorem staleOf_eq (w : Word16) : staleOf w = if 10 ≤ w.toNat ∧ w.toNat ≤ 60000 then some w.toNat else none := rfl

@[simp] theorem levelOf_setWidth (v : Level) : levelOf (v.setWidth 16) = some v := by
  have := v.isLt
  simp only [levelOf, BitVec.toNat_setWidth]
  rw [if_pos (by omega)]
  simp

theorem levelOf_eq_none (v : Word16) : levelOf v = none ↔ 4095 < v.toNat := by simp [levelOf]

theorem budgetOf_eq_none (b : Byte) : budgetOf b = none ↔ b = 0 := by simp [budgetOf]

theorem thresholdOf_eq_none (b : Byte) : thresholdOf b = none ↔ 8 ≤ b.toNat ∧ b ≠ 0xFF := by
  simp only [thresholdOf]
  split
  · simp_all
  · simp_all [severityOf_eq_none]

theorem thresholdOf_eq (b : Byte) (h : b.toNat < 8 ∨ b = 0xFF) :
    thresholdOf b = some (Fin.ofNat 8 (if b = 0xFF then 0 else b.toNat)) := by
  revert b
  decide

theorem triggersOf_eq_none (b : Byte) : triggersOf b = none ↔ b = 0 ∨ 15 < b.toNat := by
  simp only [triggersOf]
  split <;> simp_all

theorem actionFlagsOf_eq_none (b : Byte) : actionFlagsOf b = none ↔ 7 < b.toNat := by
  simp [actionFlagsOf]

/-! ## Byte layouts -/

theorem levelBytes_eq (v : Level) : levelBytes v = [byte (v.toNat / 256), byte (v.toNat % 256)] := by
  have := v.isLt
  simp only [levelBytes, bytes16, byte]
  congr 1
  · apply BitVec.eq_of_toNat_eq; simp [Nat.shiftRight_eq_div_pow]; omega
  · congr 1
    apply BitVec.eq_of_toNat_eq; simp

theorem rawBytes_eq (v : RawReading) : rawBytes v = [byte (v.toNat / 256), byte (v.toNat % 256)] := by
  have := v.isLt
  simp only [rawBytes, bytes16, byte]
  congr 1
  · apply BitVec.eq_of_toNat_eq; simp [Nat.shiftRight_eq_div_pow]; omega
  · congr 1
    apply BitVec.eq_of_toNat_eq; simp

@[simp] theorem length_bytes16 (w : Word16) : (bytes16 w).length = 2 := rfl

@[simp] theorem length_bytes32 (w : Word32) : (bytes32 w).length = 4 := rfl

@[simp] theorem length_optWord32 (w : Option Word32) : (optWord32 w).length = 4 := rfl

/-- A staged copy is sent in 35 bytes (R188). -/
@[simp] theorem length_configBytes (c : PointConfig) : (configBytes c).length = 35 := by simp [configBytes]

@[simp] theorem length_lastWriterBytes (w : LastWriter) : w.bytes.length = 3 := by
  cases w with
  | port p => cases p <;> rfl
  | _ => rfl

/-- A port record is sent in 8 bytes, a notice in 10, an output channel in 12, an action in 8 (R187, R188). -/
@[simp] theorem length_portBytes (r : PortRec) : (portBytes r).length = 8 := rfl

@[simp] theorem length_noticeBytes (i : SlotNo) (n : Notice) : (noticeBytes i n).length = 10 := rfl

@[simp] theorem length_outputBytes (o : OutputChannel) : (outputBytes o).length = 12 := by
  simp [outputBytes, levelBytes]

@[simp] theorem length_actionBytes (a : ActionRec) : (actionBytes a).length = 8 := rfl

/-- A class record is sent in 13 bytes (R188). -/
@[simp] theorem length_classBytes (k : ScanClass) : (classBytes k).length = 13 := by
  simp only [classBytes]
  cases k.job <;> rfl

/-- A point record is sent in 61 bytes (R188). -/
@[simp] theorem length_pointBytes (s : State) (i : SlotNo) : (s.pointBytes i).length = 61 := by
  simp only [State.pointBytes, State.membershipBytes, State.staleTimerBytes]
  cases s.membership i <;> cases (s.slot i).staleTimer <;> simp [rawBytes]

/-! ## The value area of EDIT.SET (R187) -/

/-- The high part of two bit vectors put together. -/
theorem extractLsb'_append_high {m n : Nat} (a : BitVec m) (b : BitVec n) : (a ++ b).extractLsb' n m = a := by
  ext i hi
  simp [BitVec.getLsbD_append, BitVec.getLsbD_eq_getElem, hi]

/-- The low part of two bit vectors put together. -/
theorem extractLsb'_append_low {m n : Nat} (a : BitVec m) (b : BitVec n) : (a ++ b).extractLsb' 0 n = b := by
  ext i hi
  simp [BitVec.getLsbD_append, BitVec.getLsbD_eq_getElem, hi]

@[simp] theorem areaByte_append (b : Byte) (r : BitVec 56) : areaByte (b ++ r) = b :=
  extractLsb'_append_high (m := 8) (n := 56) b r

@[simp] theorem areaWord16_append (w : Word16) (r : BitVec 48) : areaWord16 (w ++ r) = w :=
  extractLsb'_append_high (m := 16) (n := 48) w r

@[simp] theorem areaWord32_append (w r : Word32) : areaWord32 (w ++ r) = w :=
  extractLsb'_append_high (m := 32) (n := 32) w r

@[simp] theorem areaSpan_append (w r : Word32) : areaSpan (w ++ r) = r :=
  extractLsb'_append_low (m := 32) (n := 32) w r

end Sys2Proof.Machine
end

