-- ==== Sys2Proof/Laws/State.lean ====
section
/-! SUPPORT. The small lemmas of the state: what reading one field gives after one update, true by definition, and what
reading a record gives after a record was written. -/

namespace Sys2Proof.Machine
namespace State

/-! ## After `setSlot` -/

@[simp] theorem setSlot_pending (s : State) (i : SlotNo) (r : PointSlot) : (s.setSlot i r).pending = s.pending := rfl
@[simp] theorem setSlot_now (s : State) (i : SlotNo) (r : PointSlot) : (s.setSlot i r).now = s.now := rfl
@[simp] theorem setSlot_freeIndex (s : State) (i : SlotNo) (r : PointSlot) : (s.setSlot i r).freeIndex = s.freeIndex := rfl
@[simp] theorem setSlot_rstAsserted (s : State) (i : SlotNo) (r : PointSlot) : (s.setSlot i r).rstAsserted = s.rstAsserted := rfl
@[simp] theorem setSlot_keyMap (s : State) (i : SlotNo) (r : PointSlot) : (s.setSlot i r).keyMap = s.keyMap := rfl
@[simp] theorem setSlot_classes (s : State) (i : SlotNo) (r : PointSlot) : (s.setSlot i r).classes = s.classes := rfl
@[simp] theorem setSlot_frontEnd (s : State) (i : SlotNo) (r : PointSlot) : (s.setSlot i r).frontEnd = s.frontEnd := rfl
@[simp] theorem setSlot_notices (s : State) (i : SlotNo) (r : PointSlot) : (s.setSlot i r).notices = s.notices := rfl
@[simp] theorem setSlot_raiseSeq (s : State) (i : SlotNo) (r : PointSlot) : (s.setSlot i r).raiseSeq = s.raiseSeq := rfl
@[simp] theorem setSlot_waits (s : State) (i : SlotNo) (r : PointSlot) : (s.setSlot i r).waits = s.waits := rfl
@[simp] theorem setSlot_actions (s : State) (i : SlotNo) (r : PointSlot) : (s.setSlot i r).actions = s.actions := rfl
@[simp] theorem setSlot_outputs (s : State) (i : SlotNo) (r : PointSlot) : (s.setSlot i r).outputs = s.outputs := rfl
@[simp] theorem setSlot_portH (s : State) (i : SlotNo) (r : PointSlot) : (s.setSlot i r).portH = s.portH := rfl
@[simp] theorem setSlot_portL (s : State) (i : SlotNo) (r : PointSlot) : (s.setSlot i r).portL = s.portL := rfl
@[simp] theorem setSlot_cls (s : State) (i : SlotNo) (r : PointSlot) (d : ClassNo) : (s.setSlot i r).cls d = s.cls d := rfl
@[simp] theorem setSlot_notice (s : State) (i : SlotNo) (r : PointSlot) (j : SlotNo) : (s.setSlot i r).notice j = s.notice j := rfl
@[simp] theorem setSlot_action (s : State) (i : SlotNo) (r : PointSlot) (b : ActionNo) : (s.setSlot i r).action b = s.action b := rfl
@[simp] theorem setSlot_output (s : State) (i : SlotNo) (r : PointSlot) (o : OutputNo) : (s.setSlot i r).output o = s.output o := rfl
@[simp] theorem setSlot_port (s : State) (i : SlotNo) (r : PointSlot) (q : Port) : (s.setSlot i r).port q = s.port q := by cases q <;> rfl

/-! ## After `setCls` -/

@[simp] theorem setCls_pending (s : State) (c : ClassNo) (r : ScanClass) : (s.setCls c r).pending = s.pending := rfl
@[simp] theorem setCls_now (s : State) (c : ClassNo) (r : ScanClass) : (s.setCls c r).now = s.now := rfl
@[simp] theorem setCls_freeIndex (s : State) (c : ClassNo) (r : ScanClass) : (s.setCls c r).freeIndex = s.freeIndex := rfl
@[simp] theorem setCls_rstAsserted (s : State) (c : ClassNo) (r : ScanClass) : (s.setCls c r).rstAsserted = s.rstAsserted := rfl
@[simp] theorem setCls_slots (s : State) (c : ClassNo) (r : ScanClass) : (s.setCls c r).slots = s.slots := rfl
@[simp] theorem setCls_keyMap (s : State) (c : ClassNo) (r : ScanClass) : (s.setCls c r).keyMap = s.keyMap := rfl
@[simp] theorem setCls_frontEnd (s : State) (c : ClassNo) (r : ScanClass) : (s.setCls c r).frontEnd = s.frontEnd := rfl
@[simp] theorem setCls_notices (s : State) (c : ClassNo) (r : ScanClass) : (s.setCls c r).notices = s.notices := rfl
@[simp] theorem setCls_raiseSeq (s : State) (c : ClassNo) (r : ScanClass) : (s.setCls c r).raiseSeq = s.raiseSeq := rfl
@[simp] theorem setCls_waits (s : State) (c : ClassNo) (r : ScanClass) : (s.setCls c r).waits = s.waits := rfl
@[simp] theorem setCls_actions (s : State) (c : ClassNo) (r : ScanClass) : (s.setCls c r).actions = s.actions := rfl
@[simp] theorem setCls_outputs (s : State) (c : ClassNo) (r : ScanClass) : (s.setCls c r).outputs = s.outputs := rfl
@[simp] theorem setCls_portH (s : State) (c : ClassNo) (r : ScanClass) : (s.setCls c r).portH = s.portH := rfl
@[simp] theorem setCls_portL (s : State) (c : ClassNo) (r : ScanClass) : (s.setCls c r).portL = s.portL := rfl
@[simp] theorem setCls_slot (s : State) (c : ClassNo) (r : ScanClass) (j : SlotNo) : (s.setCls c r).slot j = s.slot j := rfl
@[simp] theorem setCls_notice (s : State) (c : ClassNo) (r : ScanClass) (j : SlotNo) : (s.setCls c r).notice j = s.notice j := rfl
@[simp] theorem setCls_action (s : State) (c : ClassNo) (r : ScanClass) (b : ActionNo) : (s.setCls c r).action b = s.action b := rfl
@[simp] theorem setCls_output (s : State) (c : ClassNo) (r : ScanClass) (o : OutputNo) : (s.setCls c r).output o = s.output o := rfl
@[simp] theorem setCls_port (s : State) (c : ClassNo) (r : ScanClass) (q : Port) : (s.setCls c r).port q = s.port q := by cases q <;> rfl

/-! ## After `setNotice` -/

@[simp] theorem setNotice_pending (s : State) (i : SlotNo) (n : Option Notice) : (s.setNotice i n).pending = s.pending := rfl
@[simp] theorem setNotice_now (s : State) (i : SlotNo) (n : Option Notice) : (s.setNotice i n).now = s.now := rfl
@[simp] theorem setNotice_freeIndex (s : State) (i : SlotNo) (n : Option Notice) : (s.setNotice i n).freeIndex = s.freeIndex := rfl
@[simp] theorem setNotice_rstAsserted (s : State) (i : SlotNo) (n : Option Notice) : (s.setNotice i n).rstAsserted = s.rstAsserted := rfl
@[simp] theorem setNotice_slots (s : State) (i : SlotNo) (n : Option Notice) : (s.setNotice i n).slots = s.slots := rfl
@[simp] theorem setNotice_keyMap (s : State) (i : SlotNo) (n : Option Notice) : (s.setNotice i n).keyMap = s.keyMap := rfl
@[simp] theorem setNotice_classes (s : State) (i : SlotNo) (n : Option Notice) : (s.setNotice i n).classes = s.classes := rfl
@[simp] theorem setNotice_frontEnd (s : State) (i : SlotNo) (n : Option Notice) : (s.setNotice i n).frontEnd = s.frontEnd := rfl
@[simp] theorem setNotice_raiseSeq (s : State) (i : SlotNo) (n : Option Notice) : (s.setNotice i n).raiseSeq = s.raiseSeq := rfl
@[simp] theorem setNotice_waits (s : State) (i : SlotNo) (n : Option Notice) : (s.setNotice i n).waits = s.waits := rfl
@[simp] theorem setNotice_actions (s : State) (i : SlotNo) (n : Option Notice) : (s.setNotice i n).actions = s.actions := rfl
@[simp] theorem setNotice_outputs (s : State) (i : SlotNo) (n : Option Notice) : (s.setNotice i n).outputs = s.outputs := rfl
@[simp] theorem setNotice_portH (s : State) (i : SlotNo) (n : Option Notice) : (s.setNotice i n).portH = s.portH := rfl
@[simp] theorem setNotice_portL (s : State) (i : SlotNo) (n : Option Notice) : (s.setNotice i n).portL = s.portL := rfl
@[simp] theorem setNotice_slot (s : State) (i : SlotNo) (n : Option Notice) (j : SlotNo) : (s.setNotice i n).slot j = s.slot j := rfl
@[simp] theorem setNotice_cls (s : State) (i : SlotNo) (n : Option Notice) (d : ClassNo) : (s.setNotice i n).cls d = s.cls d := rfl
@[simp] theorem setNotice_action (s : State) (i : SlotNo) (n : Option Notice) (b : ActionNo) : (s.setNotice i n).action b = s.action b := rfl
@[simp] theorem setNotice_output (s : State) (i : SlotNo) (n : Option Notice) (o : OutputNo) : (s.setNotice i n).output o = s.output o := rfl
@[simp] theorem setNotice_port (s : State) (i : SlotNo) (n : Option Notice) (q : Port) : (s.setNotice i n).port q = s.port q := by cases q <;> rfl

/-! ## After `setAction` -/

@[simp] theorem setAction_pending (s : State) (a : ActionNo) (r : ActionRec) : (s.setAction a r).pending = s.pending := rfl
@[simp] theorem setAction_now (s : State) (a : ActionNo) (r : ActionRec) : (s.setAction a r).now = s.now := rfl
@[simp] theorem setAction_freeIndex (s : State) (a : ActionNo) (r : ActionRec) : (s.setAction a r).freeIndex = s.freeIndex := rfl
@[simp] theorem setAction_rstAsserted (s : State) (a : ActionNo) (r : ActionRec) : (s.setAction a r).rstAsserted = s.rstAsserted := rfl
@[simp] theorem setAction_slots (s : State) (a : ActionNo) (r : ActionRec) : (s.setAction a r).slots = s.slots := rfl
@[simp] theorem setAction_keyMap (s : State) (a : ActionNo) (r : ActionRec) : (s.setAction a r).keyMap = s.keyMap := rfl
@[simp] theorem setAction_classes (s : State) (a : ActionNo) (r : ActionRec) : (s.setAction a r).classes = s.classes := rfl
@[simp] theorem setAction_frontEnd (s : State) (a : ActionNo) (r : ActionRec) : (s.setAction a r).frontEnd = s.frontEnd := rfl
@[simp] theorem setAction_notices (s : State) (a : ActionNo) (r : ActionRec) : (s.setAction a r).notices = s.notices := rfl
@[simp] theorem setAction_raiseSeq (s : State) (a : ActionNo) (r : ActionRec) : (s.setAction a r).raiseSeq = s.raiseSeq := rfl
@[simp] theorem setAction_waits (s : State) (a : ActionNo) (r : ActionRec) : (s.setAction a r).waits = s.waits := rfl
@[simp] theorem setAction_outputs (s : State) (a : ActionNo) (r : ActionRec) : (s.setAction a r).outputs = s.outputs := rfl
@[simp] theorem setAction_portH (s : State) (a : ActionNo) (r : ActionRec) : (s.setAction a r).portH = s.portH := rfl
@[simp] theorem setAction_portL (s : State) (a : ActionNo) (r : ActionRec) : (s.setAction a r).portL = s.portL := rfl
@[simp] theorem setAction_slot (s : State) (a : ActionNo) (r : ActionRec) (j : SlotNo) : (s.setAction a r).slot j = s.slot j := rfl
@[simp] theorem setAction_cls (s : State) (a : ActionNo) (r : ActionRec) (d : ClassNo) : (s.setAction a r).cls d = s.cls d := rfl
@[simp] theorem setAction_notice (s : State) (a : ActionNo) (r : ActionRec) (j : SlotNo) : (s.setAction a r).notice j = s.notice j := rfl
@[simp] theorem setAction_output (s : State) (a : ActionNo) (r : ActionRec) (o : OutputNo) : (s.setAction a r).output o = s.output o := rfl
@[simp] theorem setAction_port (s : State) (a : ActionNo) (r : ActionRec) (q : Port) : (s.setAction a r).port q = s.port q := by cases q <;> rfl

/-! ## After `setOutput` -/

@[simp] theorem setOutput_pending (s : State) (u : OutputNo) (r : OutputChannel) : (s.setOutput u r).pending = s.pending := rfl
@[simp] theorem setOutput_now (s : State) (u : OutputNo) (r : OutputChannel) : (s.setOutput u r).now = s.now := rfl
@[simp] theorem setOutput_freeIndex (s : State) (u : OutputNo) (r : OutputChannel) : (s.setOutput u r).freeIndex = s.freeIndex := rfl
@[simp] theorem setOutput_rstAsserted (s : State) (u : OutputNo) (r : OutputChannel) : (s.setOutput u r).rstAsserted = s.rstAsserted := rfl
@[simp] theorem setOutput_slots (s : State) (u : OutputNo) (r : OutputChannel) : (s.setOutput u r).slots = s.slots := rfl
@[simp] theorem setOutput_keyMap (s : State) (u : OutputNo) (r : OutputChannel) : (s.setOutput u r).keyMap = s.keyMap := rfl
@[simp] theorem setOutput_classes (s : State) (u : OutputNo) (r : OutputChannel) : (s.setOutput u r).classes = s.classes := rfl
@[simp] theorem setOutput_frontEnd (s : State) (u : OutputNo) (r : OutputChannel) : (s.setOutput u r).frontEnd = s.frontEnd := rfl
@[simp] theorem setOutput_notices (s : State) (u : OutputNo) (r : OutputChannel) : (s.setOutput u r).notices = s.notices := rfl
@[simp] theorem setOutput_raiseSeq (s : State) (u : OutputNo) (r : OutputChannel) : (s.setOutput u r).raiseSeq = s.raiseSeq := rfl
@[simp] theorem setOutput_waits (s : State) (u : OutputNo) (r : OutputChannel) : (s.setOutput u r).waits = s.waits := rfl
@[simp] theorem setOutput_actions (s : State) (u : OutputNo) (r : OutputChannel) : (s.setOutput u r).actions = s.actions := rfl
@[simp] theorem setOutput_portH (s : State) (u : OutputNo) (r : OutputChannel) : (s.setOutput u r).portH = s.portH := rfl
@[simp] theorem setOutput_portL (s : State) (u : OutputNo) (r : OutputChannel) : (s.setOutput u r).portL = s.portL := rfl
@[simp] theorem setOutput_slot (s : State) (u : OutputNo) (r : OutputChannel) (j : SlotNo) : (s.setOutput u r).slot j = s.slot j := rfl
@[simp] theorem setOutput_cls (s : State) (u : OutputNo) (r : OutputChannel) (d : ClassNo) : (s.setOutput u r).cls d = s.cls d := rfl
@[simp] theorem setOutput_notice (s : State) (u : OutputNo) (r : OutputChannel) (j : SlotNo) : (s.setOutput u r).notice j = s.notice j := rfl
@[simp] theorem setOutput_action (s : State) (u : OutputNo) (r : OutputChannel) (b : ActionNo) : (s.setOutput u r).action b = s.action b := rfl
@[simp] theorem setOutput_port (s : State) (u : OutputNo) (r : OutputChannel) (q : Port) : (s.setOutput u r).port q = s.port q := by cases q <;> rfl

/-! ## After `setKeyMap` -/

@[simp] theorem setKeyMap_pending (s : State) (m : List KeyEntry) : (s.setKeyMap m).pending = s.pending := rfl
@[simp] theorem setKeyMap_now (s : State) (m : List KeyEntry) : (s.setKeyMap m).now = s.now := rfl
@[simp] theorem setKeyMap_freeIndex (s : State) (m : List KeyEntry) : (s.setKeyMap m).freeIndex = s.freeIndex := rfl
@[simp] theorem setKeyMap_rstAsserted (s : State) (m : List KeyEntry) : (s.setKeyMap m).rstAsserted = s.rstAsserted := rfl
@[simp] theorem setKeyMap_slots (s : State) (m : List KeyEntry) : (s.setKeyMap m).slots = s.slots := rfl
@[simp] theorem setKeyMap_classes (s : State) (m : List KeyEntry) : (s.setKeyMap m).classes = s.classes := rfl
@[simp] theorem setKeyMap_frontEnd (s : State) (m : List KeyEntry) : (s.setKeyMap m).frontEnd = s.frontEnd := rfl
@[simp] theorem setKeyMap_notices (s : State) (m : List KeyEntry) : (s.setKeyMap m).notices = s.notices := rfl
@[simp] theorem setKeyMap_raiseSeq (s : State) (m : List KeyEntry) : (s.setKeyMap m).raiseSeq = s.raiseSeq := rfl
@[simp] theorem setKeyMap_waits (s : State) (m : List KeyEntry) : (s.setKeyMap m).waits = s.waits := rfl
@[simp] theorem setKeyMap_actions (s : State) (m : List KeyEntry) : (s.setKeyMap m).actions = s.actions := rfl
@[simp] theorem setKeyMap_outputs (s : State) (m : List KeyEntry) : (s.setKeyMap m).outputs = s.outputs := rfl
@[simp] theorem setKeyMap_portH (s : State) (m : List KeyEntry) : (s.setKeyMap m).portH = s.portH := rfl
@[simp] theorem setKeyMap_portL (s : State) (m : List KeyEntry) : (s.setKeyMap m).portL = s.portL := rfl
@[simp] theorem setKeyMap_slot (s : State) (m : List KeyEntry) (j : SlotNo) : (s.setKeyMap m).slot j = s.slot j := rfl
@[simp] theorem setKeyMap_cls (s : State) (m : List KeyEntry) (d : ClassNo) : (s.setKeyMap m).cls d = s.cls d := rfl
@[simp] theorem setKeyMap_notice (s : State) (m : List KeyEntry) (j : SlotNo) : (s.setKeyMap m).notice j = s.notice j := rfl
@[simp] theorem setKeyMap_action (s : State) (m : List KeyEntry) (b : ActionNo) : (s.setKeyMap m).action b = s.action b := rfl
@[simp] theorem setKeyMap_output (s : State) (m : List KeyEntry) (o : OutputNo) : (s.setKeyMap m).output o = s.output o := rfl
@[simp] theorem setKeyMap_port (s : State) (m : List KeyEntry) (q : Port) : (s.setKeyMap m).port q = s.port q := by cases q <;> rfl

/-! ## After `setFrontEnd` -/

@[simp] theorem setFrontEnd_pending (s : State) (fe : FrontEnd) : (s.setFrontEnd fe).pending = s.pending := rfl
@[simp] theorem setFrontEnd_now (s : State) (fe : FrontEnd) : (s.setFrontEnd fe).now = s.now := rfl
@[simp] theorem setFrontEnd_freeIndex (s : State) (fe : FrontEnd) : (s.setFrontEnd fe).freeIndex = s.freeIndex := rfl
@[simp] theorem setFrontEnd_rstAsserted (s : State) (fe : FrontEnd) : (s.setFrontEnd fe).rstAsserted = s.rstAsserted := rfl
@[simp] theorem setFrontEnd_slots (s : State) (fe : FrontEnd) : (s.setFrontEnd fe).slots = s.slots := rfl
@[simp] theorem setFrontEnd_keyMap (s : State) (fe : FrontEnd) : (s.setFrontEnd fe).keyMap = s.keyMap := rfl
@[simp] theorem setFrontEnd_classes (s : State) (fe : FrontEnd) : (s.setFrontEnd fe).classes = s.classes := rfl
@[simp] theorem setFrontEnd_notices (s : State) (fe : FrontEnd) : (s.setFrontEnd fe).notices = s.notices := rfl
@[simp] theorem setFrontEnd_raiseSeq (s : State) (fe : FrontEnd) : (s.setFrontEnd fe).raiseSeq = s.raiseSeq := rfl
@[simp] theorem setFrontEnd_waits (s : State) (fe : FrontEnd) : (s.setFrontEnd fe).waits = s.waits := rfl
@[simp] theorem setFrontEnd_actions (s : State) (fe : FrontEnd) : (s.setFrontEnd fe).actions = s.actions := rfl
@[simp] theorem setFrontEnd_outputs (s : State) (fe : FrontEnd) : (s.setFrontEnd fe).outputs = s.outputs := rfl
@[simp] theorem setFrontEnd_portH (s : State) (fe : FrontEnd) : (s.setFrontEnd fe).portH = s.portH := rfl
@[simp] theorem setFrontEnd_portL (s : State) (fe : FrontEnd) : (s.setFrontEnd fe).portL = s.portL := rfl
@[simp] theorem setFrontEnd_slot (s : State) (fe : FrontEnd) (j : SlotNo) : (s.setFrontEnd fe).slot j = s.slot j := rfl
@[simp] theorem setFrontEnd_cls (s : State) (fe : FrontEnd) (d : ClassNo) : (s.setFrontEnd fe).cls d = s.cls d := rfl
@[simp] theorem setFrontEnd_notice (s : State) (fe : FrontEnd) (j : SlotNo) : (s.setFrontEnd fe).notice j = s.notice j := rfl
@[simp] theorem setFrontEnd_action (s : State) (fe : FrontEnd) (b : ActionNo) : (s.setFrontEnd fe).action b = s.action b := rfl
@[simp] theorem setFrontEnd_output (s : State) (fe : FrontEnd) (o : OutputNo) : (s.setFrontEnd fe).output o = s.output o := rfl
@[simp] theorem setFrontEnd_port (s : State) (fe : FrontEnd) (q : Port) : (s.setFrontEnd fe).port q = s.port q := by cases q <;> rfl

/-! ## After `setWaits` -/

@[simp] theorem setWaits_pending (s : State) (ws : List WaitRec) : (s.setWaits ws).pending = s.pending := rfl
@[simp] theorem setWaits_now (s : State) (ws : List WaitRec) : (s.setWaits ws).now = s.now := rfl
@[simp] theorem setWaits_freeIndex (s : State) (ws : List WaitRec) : (s.setWaits ws).freeIndex = s.freeIndex := rfl
@[simp] theorem setWaits_rstAsserted (s : State) (ws : List WaitRec) : (s.setWaits ws).rstAsserted = s.rstAsserted := rfl
@[simp] theorem setWaits_slots (s : State) (ws : List WaitRec) : (s.setWaits ws).slots = s.slots := rfl
@[simp] theorem setWaits_keyMap (s : State) (ws : List WaitRec) : (s.setWaits ws).keyMap = s.keyMap := rfl
@[simp] theorem setWaits_classes (s : State) (ws : List WaitRec) : (s.setWaits ws).classes = s.classes := rfl
@[simp] theorem setWaits_frontEnd (s : State) (ws : List WaitRec) : (s.setWaits ws).frontEnd = s.frontEnd := rfl
@[simp] theorem setWaits_notices (s : State) (ws : List WaitRec) : (s.setWaits ws).notices = s.notices := rfl
@[simp] theorem setWaits_raiseSeq (s : State) (ws : List WaitRec) : (s.setWaits ws).raiseSeq = s.raiseSeq := rfl
@[simp] theorem setWaits_actions (s : State) (ws : List WaitRec) : (s.setWaits ws).actions = s.actions := rfl
@[simp] theorem setWaits_outputs (s : State) (ws : List WaitRec) : (s.setWaits ws).outputs = s.outputs := rfl
@[simp] theorem setWaits_portH (s : State) (ws : List WaitRec) : (s.setWaits ws).portH = s.portH := rfl
@[simp] theorem setWaits_portL (s : State) (ws : List WaitRec) : (s.setWaits ws).portL = s.portL := rfl
@[simp] theorem setWaits_slot (s : State) (ws : List WaitRec) (j : SlotNo) : (s.setWaits ws).slot j = s.slot j := rfl
@[simp] theorem setWaits_cls (s : State) (ws : List WaitRec) (d : ClassNo) : (s.setWaits ws).cls d = s.cls d := rfl
@[simp] theorem setWaits_notice (s : State) (ws : List WaitRec) (j : SlotNo) : (s.setWaits ws).notice j = s.notice j := rfl
@[simp] theorem setWaits_action (s : State) (ws : List WaitRec) (b : ActionNo) : (s.setWaits ws).action b = s.action b := rfl
@[simp] theorem setWaits_output (s : State) (ws : List WaitRec) (o : OutputNo) : (s.setWaits ws).output o = s.output o := rfl
@[simp] theorem setWaits_port (s : State) (ws : List WaitRec) (q : Port) : (s.setWaits ws).port q = s.port q := by cases q <;> rfl

/-! ## After `countRaise` -/

@[simp] theorem countRaise_pending (s : State) : (s.countRaise).pending = s.pending := rfl
@[simp] theorem countRaise_now (s : State) : (s.countRaise).now = s.now := rfl
@[simp] theorem countRaise_freeIndex (s : State) : (s.countRaise).freeIndex = s.freeIndex := rfl
@[simp] theorem countRaise_rstAsserted (s : State) : (s.countRaise).rstAsserted = s.rstAsserted := rfl
@[simp] theorem countRaise_slots (s : State) : (s.countRaise).slots = s.slots := rfl
@[simp] theorem countRaise_keyMap (s : State) : (s.countRaise).keyMap = s.keyMap := rfl
@[simp] theorem countRaise_classes (s : State) : (s.countRaise).classes = s.classes := rfl
@[simp] theorem countRaise_frontEnd (s : State) : (s.countRaise).frontEnd = s.frontEnd := rfl
@[simp] theorem countRaise_notices (s : State) : (s.countRaise).notices = s.notices := rfl
@[simp] theorem countRaise_waits (s : State) : (s.countRaise).waits = s.waits := rfl
@[simp] theorem countRaise_actions (s : State) : (s.countRaise).actions = s.actions := rfl
@[simp] theorem countRaise_outputs (s : State) : (s.countRaise).outputs = s.outputs := rfl
@[simp] theorem countRaise_portH (s : State) : (s.countRaise).portH = s.portH := rfl
@[simp] theorem countRaise_portL (s : State) : (s.countRaise).portL = s.portL := rfl
@[simp] theorem countRaise_slot (s : State) (j : SlotNo) : (s.countRaise).slot j = s.slot j := rfl
@[simp] theorem countRaise_cls (s : State) (d : ClassNo) : (s.countRaise).cls d = s.cls d := rfl
@[simp] theorem countRaise_notice (s : State) (j : SlotNo) : (s.countRaise).notice j = s.notice j := rfl
@[simp] theorem countRaise_action (s : State) (b : ActionNo) : (s.countRaise).action b = s.action b := rfl
@[simp] theorem countRaise_output (s : State) (o : OutputNo) : (s.countRaise).output o = s.output o := rfl
@[simp] theorem countRaise_port (s : State) (q : Port) : (s.countRaise).port q = s.port q := by cases q <;> rfl

/-! ## After `mapSlots` -/

@[simp] theorem mapSlots_pending (s : State) (f : PointSlot → PointSlot) : (s.mapSlots f).pending = s.pending := rfl
@[simp] theorem mapSlots_now (s : State) (f : PointSlot → PointSlot) : (s.mapSlots f).now = s.now := rfl
@[simp] theorem mapSlots_freeIndex (s : State) (f : PointSlot → PointSlot) : (s.mapSlots f).freeIndex = s.freeIndex := rfl
@[simp] theorem mapSlots_rstAsserted (s : State) (f : PointSlot → PointSlot) : (s.mapSlots f).rstAsserted = s.rstAsserted := rfl
@[simp] theorem mapSlots_keyMap (s : State) (f : PointSlot → PointSlot) : (s.mapSlots f).keyMap = s.keyMap := rfl
@[simp] theorem mapSlots_classes (s : State) (f : PointSlot → PointSlot) : (s.mapSlots f).classes = s.classes := rfl
@[simp] theorem mapSlots_frontEnd (s : State) (f : PointSlot → PointSlot) : (s.mapSlots f).frontEnd = s.frontEnd := rfl
@[simp] theorem mapSlots_notices (s : State) (f : PointSlot → PointSlot) : (s.mapSlots f).notices = s.notices := rfl
@[simp] theorem mapSlots_raiseSeq (s : State) (f : PointSlot → PointSlot) : (s.mapSlots f).raiseSeq = s.raiseSeq := rfl
@[simp] theorem mapSlots_waits (s : State) (f : PointSlot → PointSlot) : (s.mapSlots f).waits = s.waits := rfl
@[simp] theorem mapSlots_actions (s : State) (f : PointSlot → PointSlot) : (s.mapSlots f).actions = s.actions := rfl
@[simp] theorem mapSlots_outputs (s : State) (f : PointSlot → PointSlot) : (s.mapSlots f).outputs = s.outputs := rfl
@[simp] theorem mapSlots_portH (s : State) (f : PointSlot → PointSlot) : (s.mapSlots f).portH = s.portH := rfl
@[simp] theorem mapSlots_portL (s : State) (f : PointSlot → PointSlot) : (s.mapSlots f).portL = s.portL := rfl
@[simp] theorem mapSlots_cls (s : State) (f : PointSlot → PointSlot) (d : ClassNo) : (s.mapSlots f).cls d = s.cls d := rfl
@[simp] theorem mapSlots_notice (s : State) (f : PointSlot → PointSlot) (j : SlotNo) : (s.mapSlots f).notice j = s.notice j := rfl
@[simp] theorem mapSlots_action (s : State) (f : PointSlot → PointSlot) (b : ActionNo) : (s.mapSlots f).action b = s.action b := rfl
@[simp] theorem mapSlots_output (s : State) (f : PointSlot → PointSlot) (o : OutputNo) : (s.mapSlots f).output o = s.output o := rfl
@[simp] theorem mapSlots_port (s : State) (f : PointSlot → PointSlot) (q : Port) : (s.mapSlots f).port q = s.port q := by cases q <;> rfl

/-! ## After `mapNotices` -/

@[simp] theorem mapNotices_pending (s : State) (f : Notice → Notice) : (s.mapNotices f).pending = s.pending := rfl
@[simp] theorem mapNotices_now (s : State) (f : Notice → Notice) : (s.mapNotices f).now = s.now := rfl
@[simp] theorem mapNotices_freeIndex (s : State) (f : Notice → Notice) : (s.mapNotices f).freeIndex = s.freeIndex := rfl
@[simp] theorem mapNotices_rstAsserted (s : State) (f : Notice → Notice) : (s.mapNotices f).rstAsserted = s.rstAsserted := rfl
@[simp] theorem mapNotices_slots (s : State) (f : Notice → Notice) : (s.mapNotices f).slots = s.slots := rfl
@[simp] theorem mapNotices_keyMap (s : State) (f : Notice → Notice) : (s.mapNotices f).keyMap = s.keyMap := rfl
@[simp] theorem mapNotices_classes (s : State) (f : Notice → Notice) : (s.mapNotices f).classes = s.classes := rfl
@[simp] theorem mapNotices_frontEnd (s : State) (f : Notice → Notice) : (s.mapNotices f).frontEnd = s.frontEnd := rfl
@[simp] theorem mapNotices_raiseSeq (s : State) (f : Notice → Notice) : (s.mapNotices f).raiseSeq = s.raiseSeq := rfl
@[simp] theorem mapNotices_waits (s : State) (f : Notice → Notice) : (s.mapNotices f).waits = s.waits := rfl
@[simp] theorem mapNotices_actions (s : State) (f : Notice → Notice) : (s.mapNotices f).actions = s.actions := rfl
@[simp] theorem mapNotices_outputs (s : State) (f : Notice → Notice) : (s.mapNotices f).outputs = s.outputs := rfl
@[simp] theorem mapNotices_portH (s : State) (f : Notice → Notice) : (s.mapNotices f).portH = s.portH := rfl
@[simp] theorem mapNotices_portL (s : State) (f : Notice → Notice) : (s.mapNotices f).portL = s.portL := rfl
@[simp] theorem mapNotices_slot (s : State) (f : Notice → Notice) (j : SlotNo) : (s.mapNotices f).slot j = s.slot j := rfl
@[simp] theorem mapNotices_cls (s : State) (f : Notice → Notice) (d : ClassNo) : (s.mapNotices f).cls d = s.cls d := rfl
@[simp] theorem mapNotices_action (s : State) (f : Notice → Notice) (b : ActionNo) : (s.mapNotices f).action b = s.action b := rfl
@[simp] theorem mapNotices_output (s : State) (f : Notice → Notice) (o : OutputNo) : (s.mapNotices f).output o = s.output o := rfl
@[simp] theorem mapNotices_port (s : State) (f : Notice → Notice) (q : Port) : (s.mapNotices f).port q = s.port q := by cases q <;> rfl

/-! ## After `mapOutputs` -/

@[simp] theorem mapOutputs_pending (s : State) (f : OutputChannel → OutputChannel) : (s.mapOutputs f).pending = s.pending := rfl
@[simp] theorem mapOutputs_now (s : State) (f : OutputChannel → OutputChannel) : (s.mapOutputs f).now = s.now := rfl
@[simp] theorem mapOutputs_freeIndex (s : State) (f : OutputChannel → OutputChannel) : (s.mapOutputs f).freeIndex = s.freeIndex := rfl
@[simp] theorem mapOutputs_rstAsserted (s : State) (f : OutputChannel → OutputChannel) : (s.mapOutputs f).rstAsserted = s.rstAsserted := rfl
@[simp] theorem mapOutputs_slots (s : State) (f : OutputChannel → OutputChannel) : (s.mapOutputs f).slots = s.slots := rfl
@[simp] theorem mapOutputs_keyMap (s : State) (f : OutputChannel → OutputChannel) : (s.mapOutputs f).keyMap = s.keyMap := rfl
@[simp] theorem mapOutputs_classes (s : State) (f : OutputChannel → OutputChannel) : (s.mapOutputs f).classes = s.classes := rfl
@[simp] theorem mapOutputs_frontEnd (s : State) (f : OutputChannel → OutputChannel) : (s.mapOutputs f).frontEnd = s.frontEnd := rfl
@[simp] theorem mapOutputs_notices (s : State) (f : OutputChannel → OutputChannel) : (s.mapOutputs f).notices = s.notices := rfl
@[simp] theorem mapOutputs_raiseSeq (s : State) (f : OutputChannel → OutputChannel) : (s.mapOutputs f).raiseSeq = s.raiseSeq := rfl
@[simp] theorem mapOutputs_waits (s : State) (f : OutputChannel → OutputChannel) : (s.mapOutputs f).waits = s.waits := rfl
@[simp] theorem mapOutputs_actions (s : State) (f : OutputChannel → OutputChannel) : (s.mapOutputs f).actions = s.actions := rfl
@[simp] theorem mapOutputs_portH (s : State) (f : OutputChannel → OutputChannel) : (s.mapOutputs f).portH = s.portH := rfl
@[simp] theorem mapOutputs_portL (s : State) (f : OutputChannel → OutputChannel) : (s.mapOutputs f).portL = s.portL := rfl
@[simp] theorem mapOutputs_slot (s : State) (f : OutputChannel → OutputChannel) (j : SlotNo) : (s.mapOutputs f).slot j = s.slot j := rfl
@[simp] theorem mapOutputs_cls (s : State) (f : OutputChannel → OutputChannel) (d : ClassNo) : (s.mapOutputs f).cls d = s.cls d := rfl
@[simp] theorem mapOutputs_notice (s : State) (f : OutputChannel → OutputChannel) (j : SlotNo) : (s.mapOutputs f).notice j = s.notice j := rfl
@[simp] theorem mapOutputs_action (s : State) (f : OutputChannel → OutputChannel) (b : ActionNo) : (s.mapOutputs f).action b = s.action b := rfl
@[simp] theorem mapOutputs_port (s : State) (f : OutputChannel → OutputChannel) (q : Port) : (s.mapOutputs f).port q = s.port q := by cases q <;> rfl

/-! ## After `advanceTo` -/

@[simp] theorem advanceTo_pending (s : State) (due : Nat) : (s.advanceTo due).pending = s.pending := rfl
@[simp] theorem advanceTo_freeIndex (s : State) (due : Nat) : (s.advanceTo due).freeIndex = s.freeIndex := rfl
@[simp] theorem advanceTo_rstAsserted (s : State) (due : Nat) : (s.advanceTo due).rstAsserted = s.rstAsserted := rfl
@[simp] theorem advanceTo_slots (s : State) (due : Nat) : (s.advanceTo due).slots = s.slots := rfl
@[simp] theorem advanceTo_keyMap (s : State) (due : Nat) : (s.advanceTo due).keyMap = s.keyMap := rfl
@[simp] theorem advanceTo_classes (s : State) (due : Nat) : (s.advanceTo due).classes = s.classes := rfl
@[simp] theorem advanceTo_frontEnd (s : State) (due : Nat) : (s.advanceTo due).frontEnd = s.frontEnd := rfl
@[simp] theorem advanceTo_notices (s : State) (due : Nat) : (s.advanceTo due).notices = s.notices := rfl
@[simp] theorem advanceTo_raiseSeq (s : State) (due : Nat) : (s.advanceTo due).raiseSeq = s.raiseSeq := rfl
@[simp] theorem advanceTo_waits (s : State) (due : Nat) : (s.advanceTo due).waits = s.waits := rfl
@[simp] theorem advanceTo_actions (s : State) (due : Nat) : (s.advanceTo due).actions = s.actions := rfl
@[simp] theorem advanceTo_outputs (s : State) (due : Nat) : (s.advanceTo due).outputs = s.outputs := rfl
@[simp] theorem advanceTo_portH (s : State) (due : Nat) : (s.advanceTo due).portH = s.portH := rfl
@[simp] theorem advanceTo_portL (s : State) (due : Nat) : (s.advanceTo due).portL = s.portL := rfl
@[simp] theorem advanceTo_slot (s : State) (due : Nat) (j : SlotNo) : (s.advanceTo due).slot j = s.slot j := rfl
@[simp] theorem advanceTo_cls (s : State) (due : Nat) (d : ClassNo) : (s.advanceTo due).cls d = s.cls d := rfl
@[simp] theorem advanceTo_notice (s : State) (due : Nat) (j : SlotNo) : (s.advanceTo due).notice j = s.notice j := rfl
@[simp] theorem advanceTo_action (s : State) (due : Nat) (b : ActionNo) : (s.advanceTo due).action b = s.action b := rfl
@[simp] theorem advanceTo_output (s : State) (due : Nat) (o : OutputNo) : (s.advanceTo due).output o = s.output o := rfl
@[simp] theorem advanceTo_port (s : State) (due : Nat) (q : Port) : (s.advanceTo due).port q = s.port q := by cases q <;> rfl

/-! ## After `setPort` -/

@[simp] theorem setPort_pending (s : State) (p : Port) (r : PortRec) : (s.setPort p r).pending = s.pending := by cases p <;> rfl
@[simp] theorem setPort_now (s : State) (p : Port) (r : PortRec) : (s.setPort p r).now = s.now := by cases p <;> rfl
@[simp] theorem setPort_freeIndex (s : State) (p : Port) (r : PortRec) : (s.setPort p r).freeIndex = s.freeIndex := by cases p <;> rfl
@[simp] theorem setPort_rstAsserted (s : State) (p : Port) (r : PortRec) : (s.setPort p r).rstAsserted = s.rstAsserted := by cases p <;> rfl
@[simp] theorem setPort_slots (s : State) (p : Port) (r : PortRec) : (s.setPort p r).slots = s.slots := by cases p <;> rfl
@[simp] theorem setPort_keyMap (s : State) (p : Port) (r : PortRec) : (s.setPort p r).keyMap = s.keyMap := by cases p <;> rfl
@[simp] theorem setPort_classes (s : State) (p : Port) (r : PortRec) : (s.setPort p r).classes = s.classes := by cases p <;> rfl
@[simp] theorem setPort_frontEnd (s : State) (p : Port) (r : PortRec) : (s.setPort p r).frontEnd = s.frontEnd := by cases p <;> rfl
@[simp] theorem setPort_notices (s : State) (p : Port) (r : PortRec) : (s.setPort p r).notices = s.notices := by cases p <;> rfl
@[simp] theorem setPort_raiseSeq (s : State) (p : Port) (r : PortRec) : (s.setPort p r).raiseSeq = s.raiseSeq := by cases p <;> rfl
@[simp] theorem setPort_waits (s : State) (p : Port) (r : PortRec) : (s.setPort p r).waits = s.waits := by cases p <;> rfl
@[simp] theorem setPort_actions (s : State) (p : Port) (r : PortRec) : (s.setPort p r).actions = s.actions := by cases p <;> rfl
@[simp] theorem setPort_outputs (s : State) (p : Port) (r : PortRec) : (s.setPort p r).outputs = s.outputs := by cases p <;> rfl
@[simp] theorem setPort_slot (s : State) (p : Port) (r : PortRec) (j : SlotNo) : (s.setPort p r).slot j = s.slot j := by cases p <;> rfl
@[simp] theorem setPort_cls (s : State) (p : Port) (r : PortRec) (d : ClassNo) : (s.setPort p r).cls d = s.cls d := by cases p <;> rfl
@[simp] theorem setPort_notice (s : State) (p : Port) (r : PortRec) (j : SlotNo) : (s.setPort p r).notice j = s.notice j := by cases p <;> rfl
@[simp] theorem setPort_action (s : State) (p : Port) (r : PortRec) (b : ActionNo) : (s.setPort p r).action b = s.action b := by cases p <;> rfl
@[simp] theorem setPort_output (s : State) (p : Port) (r : PortRec) (o : OutputNo) : (s.setPort p r).output o = s.output o := by cases p <;> rfl

/-! ## A record read after it was written -/

theorem slot_setSlot (s : State) (i j : SlotNo) (r : PointSlot) :
    (s.setSlot i r).slot j = if i = j then r else s.slot j := by
  simp only [slot, setSlot, Fin.getElem_fin, Vector.getElem_set, Fin.ext_iff]

@[simp] theorem slot_setSlot_self (s : State) (i : SlotNo) (r : PointSlot) : (s.setSlot i r).slot i = r := by
  simp [slot_setSlot]

theorem slot_setSlot_ne (s : State) (i j : SlotNo) (r : PointSlot) (h : i ≠ j) : (s.setSlot i r).slot j = s.slot j := by
  simp [slot_setSlot, h]

theorem cls_setCls (s : State) (c d : ClassNo) (r : ScanClass) :
    (s.setCls c r).cls d = if c = d then r else s.cls d := by
  simp only [cls, setCls, Fin.getElem_fin, Vector.getElem_set, Fin.ext_iff]

@[simp] theorem cls_setCls_self (s : State) (c : ClassNo) (r : ScanClass) : (s.setCls c r).cls c = r := by
  simp [cls_setCls]

theorem cls_setCls_ne (s : State) (c d : ClassNo) (r : ScanClass) (h : c ≠ d) : (s.setCls c r).cls d = s.cls d := by
  simp [cls_setCls, h]

theorem notice_setNotice (s : State) (i j : SlotNo) (n : Option Notice) :
    (s.setNotice i n).notice j = if i = j then n else s.notice j := by
  simp only [notice, setNotice, Fin.getElem_fin, Vector.getElem_set, Fin.ext_iff]

@[simp] theorem notice_setNotice_self (s : State) (i : SlotNo) (n : Option Notice) :
    (s.setNotice i n).notice i = n := by
  simp [notice_setNotice]

theorem notice_setNotice_ne (s : State) (i j : SlotNo) (n : Option Notice) (h : i ≠ j) :
    (s.setNotice i n).notice j = s.notice j := by
  simp [notice_setNotice, h]

theorem action_setAction (s : State) (a b : ActionNo) (r : ActionRec) :
    (s.setAction a r).action b = if a = b then r else s.action b := by
  simp only [action, setAction, Fin.getElem_fin, Vector.getElem_set, Fin.ext_iff]

@[simp] theorem action_setAction_self (s : State) (a : ActionNo) (r : ActionRec) : (s.setAction a r).action a = r := by
  simp [action_setAction]

theorem action_setAction_ne (s : State) (a b : ActionNo) (r : ActionRec) (h : a ≠ b) :
    (s.setAction a r).action b = s.action b := by
  simp [action_setAction, h]

theorem output_setOutput (s : State) (u o : OutputNo) (r : OutputChannel) :
    (s.setOutput u r).output o = if u = o then r else s.output o := by
  simp only [output, setOutput, Fin.getElem_fin, Vector.getElem_set, Fin.ext_iff]

@[simp] theorem output_setOutput_self (s : State) (u : OutputNo) (r : OutputChannel) :
    (s.setOutput u r).output u = r := by
  simp [output_setOutput]

theorem output_setOutput_ne (s : State) (u o : OutputNo) (r : OutputChannel) (h : u ≠ o) :
    (s.setOutput u r).output o = s.output o := by
  simp [output_setOutput, h]

theorem port_setPort (s : State) (p q : Port) (r : PortRec) :
    (s.setPort p r).port q = if p = q then r else s.port q := by
  cases p <;> cases q <;> simp [port, setPort]

@[simp] theorem port_setPort_self (s : State) (p : Port) (r : PortRec) : (s.setPort p r).port p = r := by
  simp [port_setPort]

theorem port_setPort_ne (s : State) (p q : Port) (r : PortRec) (h : p ≠ q) : (s.setPort p r).port q = s.port q := by
  simp [port_setPort, h]

@[simp] theorem port_H (s : State) : s.port .H = s.portH := rfl
@[simp] theorem port_L (s : State) : s.port .L = s.portL := rfl

@[simp] theorem slot_mapSlots (s : State) (f : PointSlot → PointSlot) (i : SlotNo) :
    (s.mapSlots f).slot i = f (s.slot i) := by
  simp [slot, mapSlots]

@[simp] theorem notice_mapNotices (s : State) (f : Notice → Notice) (i : SlotNo) :
    (s.mapNotices f).notice i = (s.notice i).map f := by
  simp [notice, mapNotices]

@[simp] theorem output_mapOutputs (s : State) (f : OutputChannel → OutputChannel) (o : OutputNo) :
    (s.mapOutputs f).output o = f (s.output o) := by
  simp [output, mapOutputs]

@[simp] theorem keyMap_setKeyMap (s : State) (m : List KeyEntry) : (s.setKeyMap m).keyMap = m := rfl
@[simp] theorem frontEnd_setFrontEnd (s : State) (fe : FrontEnd) : (s.setFrontEnd fe).frontEnd = fe := rfl
@[simp] theorem waits_setWaits (s : State) (ws : List WaitRec) : (s.setWaits ws).waits = ws := rfl
@[simp] theorem raiseSeq_countRaise (s : State) : s.countRaise.raiseSeq = s.raiseSeq + 1 := rfl
@[simp] theorem now_advanceTo (s : State) (due : Nat) : (s.advanceTo due).now = max s.now due := rfl

/-! ## A record written back, and two writes of one record -/

@[simp] theorem setSlot_slot_self (s : State) (i : SlotNo) : s.setSlot i (s.slot i) = s := by
  simp [setSlot, slot]

@[simp] theorem setCls_cls_self (s : State) (c : ClassNo) : s.setCls c (s.cls c) = s := by
  simp [setCls, cls]

@[simp] theorem setAction_action_self (s : State) (a : ActionNo) : s.setAction a (s.action a) = s := by
  simp [setAction, action]

@[simp] theorem setOutput_output_self (s : State) (o : OutputNo) : s.setOutput o (s.output o) = s := by
  simp [setOutput, output]

@[simp] theorem setPort_port_self (s : State) (p : Port) : s.setPort p (s.port p) = s := by
  cases p <;> rfl

@[simp] theorem setPort_setPort (s : State) (p : Port) (r r' : PortRec) : (s.setPort p r).setPort p r' = s.setPort p r' := by
  cases p <;> rfl

@[simp] theorem setSlot_setSlot (s : State) (i : SlotNo) (r r' : PointSlot) :
    (s.setSlot i r).setSlot i r' = s.setSlot i r' := by
  simp [setSlot]

@[simp] theorem setCls_setCls (s : State) (c : ClassNo) (r r' : ScanClass) :
    (s.setCls c r).setCls c r' = s.setCls c r' := by
  simp [setCls]

@[simp] theorem setNotice_setNotice (s : State) (i : SlotNo) (n n' : Option Notice) :
    (s.setNotice i n).setNotice i n' = s.setNotice i n' := by
  simp [setNotice]

@[simp] theorem setAction_setAction (s : State) (a : ActionNo) (r r' : ActionRec) :
    (s.setAction a r).setAction a r' = s.setAction a r' := by
  simp [setAction]

@[simp] theorem setOutput_setOutput (s : State) (o : OutputNo) (r r' : OutputChannel) :
    (s.setOutput o r).setOutput o r' = s.setOutput o r' := by
  simp [setOutput]

/-- Two states with equal parts are equal, record by record. -/
theorem ext_records (s t : State) (hp : s.pending = t.pending) (hn : s.now = t.now) (hf : s.freeIndex = t.freeIndex)
    (hr : s.rstAsserted = t.rstAsserted) (hs : ∀ i, s.slot i = t.slot i) (hk : s.keyMap = t.keyMap)
    (hc : ∀ c, s.cls c = t.cls c) (hfe : s.frontEnd = t.frontEnd) (hno : ∀ i, s.notice i = t.notice i)
    (hq : s.raiseSeq = t.raiseSeq) (hw : s.waits = t.waits) (ha : ∀ a, s.action a = t.action a)
    (ho : ∀ o, s.output o = t.output o) (hpt : ∀ p, s.port p = t.port p) : s = t := by
  have e1 : s.slots = t.slots := Vector.ext fun i h => hs ⟨i, h⟩
  have e2 : s.classes = t.classes := Vector.ext fun i h => hc ⟨i, h⟩
  have e3 : s.notices = t.notices := Vector.ext fun i h => hno ⟨i, h⟩
  have e4 : s.actions = t.actions := Vector.ext fun i h => ha ⟨i, h⟩
  have e5 : s.outputs = t.outputs := Vector.ext fun i h => ho ⟨i, h⟩
  have e6 : s.portH = t.portH := hpt .H
  have e7 : s.portL = t.portL := hpt .L
  cases s
  cases t
  simp_all

end State
end Sys2Proof.Machine
end

