-- ==== Sys2Proof/Laws/Lookups.lean ====
section
/-! SUPPORT. What each search over the records finds, said once: the lowest FREE record, the key map, a point's list
membership; and the updates of every record of a kind, given record by record. -/

namespace Sys2Proof.Machine

/-- The first number of a range that meets a test. -/
theorem find?_finRange {n : Nat} (f : Fin n → Bool) (a : Fin n) (h : f a = true) (hl : ∀ c < a, f c = false) :
    (List.finRange n).find? f = some a := by
  rw [List.find?_eq_some_iff_append]
  refine ⟨h, (List.finRange n).take a, (List.finRange n).drop (a + 1), ?_, ?_⟩
  · conv_lhs => rw [← List.take_append_drop a (List.finRange n)]
    congr 1
    rw [List.drop_eq_getElem_cons (by simp)]
    simp
  · intro c hc
    obtain ⟨k, hk, rfl⟩ := List.mem_take_iff_getElem.1 hc
    simp at hk ⊢
    exact hl _ (by simpa [Fin.lt_def] using hk)

theorem other_ne_self (p : Port) : p.other ≠ p := by cases p <;> decide

theorem ne_iff_eq_other (p q : Port) : p ≠ q ↔ q = p.other := by cases p <;> cases q <;> simp [Port.other]

theorem isAction_iff (a : ActionNo) (w : LastWriter) : w.isAction a = true ↔ ∃ i, w = .action a i := by
  cases w <;> simp [LastWriter.isAction]
  exact eq_comm

theorem isDrive_iff (a : ActionNo) (i : SlotNo) (w : LastWriter) : w.isDrive a i = true ↔ w = .action a i := by
  cases w <;> simp [LastWriter.isDrive]
  exact and_congr eq_comm eq_comm

namespace State

/-! ## FREE records and the key map -/

theorem lowestFree_eq_none (s : State) : s.lowestFree = none ↔ ∀ i, (s.slot i).state = .defined := by
  simp only [lowestFree, allSlots, List.find?_eq_none, List.mem_finRange, true_imp_iff, beq_iff_eq]
  exact forall_congr' fun i => by cases (s.slot i).state <;> simp

theorem lowestFree_eq (s : State) (i : SlotNo) (h : (s.slot i).state = .free)
    (hl : ∀ j < i, (s.slot j).state = .defined) : s.lowestFree = some i :=
  find?_finRange _ i (by simp [h]) fun c hc => by simp [hl c hc]

theorem lowestFreeAction_eq_none (s : State) : s.lowestFreeAction = none ↔ ∀ a, (s.action a).state ≠ .free := by
  simp [lowestFreeAction, allActions]

theorem lowestFreeAction_eq (s : State) (a : ActionNo) (h : (s.action a).state = .free)
    (hl : ∀ b < a, (s.action b).state ≠ .free) : s.lowestFreeAction = some a :=
  find?_finRange _ a (by simp [h]) fun c hc => by simpa using hl c hc

theorem keySlot_eq_none (s : State) (k : Word32) : s.keySlot k = none ↔ ∀ e ∈ s.keyMap, e.key ≠ k := by
  simp [keySlot]

theorem names_iff (s : State) (i : SlotNo) (g : Generation) :
    s.names i g = true ↔ (s.slot i).state = .defined ∧ (s.slot i).gen = g := by
  simp [names]

theorem names_self (s : State) (i : SlotNo) (h : (s.slot i).state = .defined) : s.names i (s.slot i).gen = true := by
  simp [names, h]

/-! ## List membership -/

theorem indexOf_isSome (k : ScanClass) (i : SlotNo) (g : Generation) :
    (k.indexOf i g).isSome = true ↔ ∃ e ∈ k.list, e.slot = i ∧ e.gen = g := by
  simp [ScanClass.indexOf]

theorem indexOf_eq_none (k : ScanClass) (i : SlotNo) (g : Generation) :
    k.indexOf i g = none ↔ ∀ e ∈ k.list, e.slot ≠ i ∨ e.gen ≠ g := by
  simp [ScanClass.indexOf, imp_iff_not_or]

/-- A point is listed in no class exactly when no list has an entry of it (R47). -/
theorem membership_eq_none (s : State) (i : SlotNo) :
    s.membership i = none ↔ ∀ c, ∀ e ∈ (s.cls c).list, e.slot ≠ i ∨ e.gen ≠ (s.slot i).gen := by
  simp [membership, allClasses, indexOf_eq_none]

/-- The entry that membership finds names the point (R47). -/
theorem membership_entry (s : State) (i : SlotNo) (c : ClassNo) (k : Nat) (h : s.membership i = some (c, k)) :
    ∃ e, (s.cls c).list[k]? = some e ∧ e.slot = i ∧ e.gen = (s.slot i).gen := by
  obtain ⟨l₁, d, l₂, -, h2, -⟩ := List.findSome?_eq_some_iff.1 h
  simp only [Option.map_eq_some_iff, Prod.mk.injEq, ScanClass.indexOf, List.findIdx?_eq_some_iff_getElem] at h2
  obtain ⟨_, ⟨hk, h3, -⟩, rfl, rfl⟩ := h2
  simp only [Bool.and_eq_true, beq_iff_eq] at h3
  exact ⟨_, List.getElem?_eq_getElem hk, h3⟩

/-! ## Every record of a kind -/

@[simp] theorem slot_withSlots (s : State) (f : SlotNo → PointSlot) (i : SlotNo) : (s.withSlots f).slot i = f i := by
  simp [withSlots, slot]

@[simp] theorem notice_withNotices (s : State) (f : SlotNo → Option Notice) (i : SlotNo) :
    (s.withNotices f).notice i = f i := by
  simp [withNotices, notice]

@[simp] theorem output_withOutputs (s : State) (f : OutputNo → OutputChannel) (o : OutputNo) :
    (s.withOutputs f).output o = f o := by
  simp [withOutputs, output]

theorem withSlots_eq (s : State) (g : PointSlot → PointSlot) (f : SlotNo → PointSlot) (h : ∀ i, f i = g (s.slot i)) :
    s.withSlots f = s.mapSlots g := by
  have : Vector.ofFn f = s.slots.map g := Vector.ext fun i hi => by simp [h, slot]
  rw [withSlots, mapSlots, this]

theorem withNotices_eq (s : State) (g : Notice → Notice) (f : SlotNo → Option Notice)
    (h : ∀ i, f i = (s.notice i).map g) : s.withNotices f = s.mapNotices g := by
  have : Vector.ofFn f = s.notices.map fun n => n.map g := Vector.ext fun i hi => by simp [h, notice]
  rw [withNotices, mapNotices, this]

theorem withOutputs_eq (s : State) (g : OutputChannel → OutputChannel) (f : OutputNo → OutputChannel)
    (h : ∀ o, f o = g (s.output o)) : s.withOutputs f = s.mapOutputs g := by
  have : Vector.ofFn f = s.outputs.map g := Vector.ext fun i hi => by simp [h, output]
  rw [withOutputs, mapOutputs, this]

/-- The channels whose saved value is dropped, record by record (R138, R140). -/
theorem dropSaved_eq (s : State) (who : LastWriter → Bool) (f : OutputNo → OutputChannel)
    (h : ∀ o, f o = if who (s.output o).lastWriter = true then { s.output o with saved := none } else s.output o) :
    s.withOutputs f = s.dropSaved who :=
  withOutputs_eq s _ f h

end State
end Sys2Proof.Machine
end

