-- ==== Sys2Proof/Laws/Requests.lean ====
section
/-! SUPPORT. What a transaction can do, said once: a request that the port admits and its owner answers leaves the owner's
effect and the answer; a request that waits leaves its open tag; a refusal leaves a slot or a count. -/

namespace Sys2Proof.Machine
namespace State

/-! ## The open tag of a request beside its owner's effect -/

@[simp] theorem openTag_setSlot (s : State) (p : Port) (t : Tag) (k : Byte) (i : SlotNo) (r : PointSlot) :
    (s.openTag p t k).setSlot i r = (s.setSlot i r).openTag p t k := by cases p <;> rfl

@[simp] theorem openTag_setCls (s : State) (p : Port) (t : Tag) (k : Byte) (c : ClassNo) (r : ScanClass) :
    (s.openTag p t k).setCls c r = (s.setCls c r).openTag p t k := by cases p <;> rfl

@[simp] theorem openTag_setNotice (s : State) (p : Port) (t : Tag) (k : Byte) (i : SlotNo) (n : Option Notice) :
    (s.openTag p t k).setNotice i n = (s.setNotice i n).openTag p t k := by cases p <;> rfl

@[simp] theorem openTag_setAction (s : State) (p : Port) (t : Tag) (k : Byte) (a : ActionNo) (r : ActionRec) :
    (s.openTag p t k).setAction a r = (s.setAction a r).openTag p t k := by cases p <;> rfl

@[simp] theorem openTag_setOutput (s : State) (p : Port) (t : Tag) (k : Byte) (o : OutputNo) (r : OutputChannel) :
    (s.openTag p t k).setOutput o r = (s.setOutput o r).openTag p t k := by cases p <;> rfl

@[simp] theorem openTag_setKeyMap (s : State) (p : Port) (t : Tag) (k : Byte) (m : List KeyEntry) :
    (s.openTag p t k).setKeyMap m = (s.setKeyMap m).openTag p t k := by cases p <;> rfl

@[simp] theorem openTag_setFrontEnd (s : State) (p : Port) (t : Tag) (k : Byte) (fe : FrontEnd) :
    (s.openTag p t k).setFrontEnd fe = (s.setFrontEnd fe).openTag p t k := by cases p <;> rfl

@[simp] theorem openTag_setWaits (s : State) (p : Port) (t : Tag) (k : Byte) (ws : List WaitRec) :
    (s.openTag p t k).setWaits ws = (s.setWaits ws).openTag p t k := by cases p <;> rfl

@[simp] theorem openTag_countRaise (s : State) (p : Port) (t : Tag) (k : Byte) :
    (s.openTag p t k).countRaise = s.countRaise.openTag p t k := by cases p <;> rfl

@[simp] theorem openTag_mapSlots (s : State) (p : Port) (t : Tag) (k : Byte) (f : PointSlot → PointSlot) :
    (s.openTag p t k).mapSlots f = (s.mapSlots f).openTag p t k := by cases p <;> rfl

@[simp] theorem openTag_mapOutputs (s : State) (p : Port) (t : Tag) (k : Byte) (f : OutputChannel → OutputChannel) :
    (s.openTag p t k).mapOutputs f = (s.mapOutputs f).openTag p t k := by cases p <;> rfl

@[simp] theorem openTag_slot (s : State) (p : Port) (t : Tag) (k : Byte) (i : SlotNo) :
    (s.openTag p t k).slot i = s.slot i := by simp [openTag]

@[simp] theorem openTag_cls (s : State) (p : Port) (t : Tag) (k : Byte) (c : ClassNo) :
    (s.openTag p t k).cls c = s.cls c := by simp [openTag]

@[simp] theorem openTag_notice (s : State) (p : Port) (t : Tag) (k : Byte) (i : SlotNo) :
    (s.openTag p t k).notice i = s.notice i := by simp [openTag]

@[simp] theorem openTag_action (s : State) (p : Port) (t : Tag) (k : Byte) (a : ActionNo) :
    (s.openTag p t k).action a = s.action a := by simp [openTag]

@[simp] theorem openTag_output (s : State) (p : Port) (t : Tag) (k : Byte) (o : OutputNo) :
    (s.openTag p t k).output o = s.output o := by simp [openTag]

@[simp] theorem openTag_keyMap (s : State) (p : Port) (t : Tag) (k : Byte) : (s.openTag p t k).keyMap = s.keyMap := by
  simp [openTag]

@[simp] theorem openTag_frontEnd (s : State) (p : Port) (t : Tag) (k : Byte) :
    (s.openTag p t k).frontEnd = s.frontEnd := by simp [openTag]

@[simp] theorem openTag_waits (s : State) (p : Port) (t : Tag) (k : Byte) : (s.openTag p t k).waits = s.waits := by
  simp [openTag]

@[simp] theorem openTag_raiseSeq (s : State) (p : Port) (t : Tag) (k : Byte) :
    (s.openTag p t k).raiseSeq = s.raiseSeq := by simp [openTag]

@[simp] theorem openTag_now (s : State) (p : Port) (t : Tag) (k : Byte) : (s.openTag p t k).now = s.now := by
  simp [openTag]

@[simp] theorem openTag_session (s : State) (p : Port) (t : Tag) (k : Byte) (q : Port) :
    ((s.openTag p t k).port q).session = (s.port q).session := by
  simp only [openTag, port_setPort]; split <;> simp_all

@[simp] theorem openTag_threshold (s : State) (p : Port) (t : Tag) (k : Byte) (q : Port) :
    ((s.openTag p t k).port q).threshold = (s.port q).threshold := by
  simp only [openTag, port_setPort]; split <;> simp_all

@[simp] theorem openTag_timeoutSteps (s : State) (p : Port) (t : Tag) (k : Byte) (q : Port) :
    ((s.openTag p t k).port q).timeoutSteps = (s.port q).timeoutSteps := by
  simp only [openTag, port_setPort]; split <;> simp_all

@[simp] theorem openTag_attached (s : State) (p : Port) (t : Tag) (k : Byte) (q : Port) :
    (s.openTag p t k).attached q = s.attached q := by simp [attached]

@[simp] theorem openTag_names (s : State) (p : Port) (t : Tag) (k : Byte) (i : SlotNo) (g : Generation) :
    (s.openTag p t k).names i g = s.names i g := by simp [names]

@[simp] theorem openTag_keySlot (s : State) (p : Port) (t : Tag) (k : Byte) (key : Word32) :
    (s.openTag p t k).keySlot key = s.keySlot key := by simp [keySlot]

/-! ## Answers -/

/-- An answer given at acceptance: the tag is open and ANSWERED, and the answer is the last of the queue (R169, R170). -/
theorem answerTag_openTag (s : State) (p : Port) (t : Tag) (k : Byte) (code : ResultCode) (data : List Byte)
    (h : ∀ e ∈ (s.port p).openTags, e.tag ≠ t) :
    (s.openTag p t k).answerTag p t code data = s.setPort p { s.port p with
      openTags := (s.port p).openTags ++ [{ tag := t, kind := k, place := .answered }]
      queue := (s.port p).queue ++ [{ tag := t, kind := k, code := code, data := data }] } := by
  have h1 : (s.openTag p t k).waitingTag p t = some { tag := t, kind := k, place := .waiting } := by
    have : (s.port p).openTags.find? (fun e => e.tag == t && e.place == .waiting) = none := by
      simp only [List.find?_eq_none, Bool.and_eq_true, beq_iff_eq, not_and]
      exact fun e he ht => absurd ht (h e he)
    simp [waitingTag, openTag, List.find?_append, this]
  have h2 : (s.port p).openTags.map (fun x => if x.tag = t then { x with place := .answered } else x) =
      (s.port p).openTags := by
    conv_rhs => rw [← List.map_id (s.port p).openTags]
    exact List.map_congr_left fun e he => by simp [h e he]
  simp only [answerTag, h1]
  simp [openTag, h2]

/-- The answer of a waiting request (R177). -/
theorem answerTag_of_waits (s : State) (p : Port) (t : Tag) (k : Byte) (code : ResultCode) (data : List Byte)
    (h : s.Waits p t k) : s.answerTag p t code data = s.served p t k code data := by
  obtain ⟨hm, hn⟩ := h
  have h1 : s.waitingTag p t = some { tag := t, kind := k, place := .waiting } := by
    unfold waitingTag
    generalize (s.port p).openTags = l at hm hn
    induction l with
    | nil => simp at hm
    | cons a l ih =>
      simp only [List.map_cons, List.nodup_cons, List.mem_map, not_exists, not_and] at hn
      rcases List.mem_cons.1 hm with rfl | hm
      · simp
      · have : a.tag ≠ t := fun e => hn.1 _ hm (by simp [e])
        simp [this, ih hm hn.2]
  simp [answerTag, h1, served]

/-- A tag with no waiting request is not answered (R170, R177). -/
theorem answerTag_of_not_waiting (s : State) (p : Port) (t : Tag) (code : ResultCode) (data : List Byte)
    (h : s.waitingTag p t = none) : s.answerTag p t code data = s := by
  simp [answerTag, h]

/-! ## A request that the port admits -/

theorem endCollect_of_none (s : State) (p : Port) (h : (s.port p).collecting = none) : s.endCollect p = s := by
  cases p <;> simp only [endCollect, setPort, port] at h ⊢ <;> rw [← h]

theorem transaction_of_takes (s : State) (p : Port) (act : State → State) (h : s.Takes p) :
    s.transaction p act = (act s).updateAttention := by
  obtain ⟨h1, h2, h3, h4⟩ := h
  simp [transaction, h1, h2, h3, endCollect_of_none _ _ h4]

theorem submit_of_admits (s : State) (p : Port) (t : Tag) (k : Byte) (needs : Bool) (owner : State → State × Reply)
    (h : s.Admits p t) : s.submit p t k needs owner = (s.accept p t k needs owner).updateAttention := by
  obtain ⟨h1, h2, h3⟩ := h
  have h4 : s.tagOpen p t = false := by
    simpa [tagOpen] using h2
  rw [submit, transaction_of_takes _ _ _ h1]
  simp [h4, Config.tagCapacity, Nat.not_le.2 h3]

theorem request_of_ready (s : State) (p : Port) (t : Tag) (k : Kind) (owner : State → State × Reply)
    (h : s.Ready p t) : s.request p t k owner =
      ((owner (s.openTag p t k.code)).1.giveReply p t (owner (s.openTag p t k.code)).2).updateAttention := by
  rw [request, submit_of_admits _ _ _ _ _ _ h.1]
  simp [accept, attached, h.2]

/-- A request answered at acceptance leaves its owner's effect and its answer (R169). -/
theorem request_answered (s s' : State) (p : Port) (t : Tag) (k : Kind) (owner : State → State × Reply)
    (code : ResultCode) (data : List Byte) (h : s.Ready p t)
    (ho : owner (s.openTag p t k.code) = (s'.openTag p t k.code, .done code data)) (hp : s'.port p = s.port p) :
    s.request p t k owner = s'.answered p t k.code code data := by
  rw [request_of_ready _ _ _ _ _ h, ho]
  simp only [giveReply, answered]
  rw [answerTag_openTag _ _ _ _ _ _ (by rw [hp]; exact h.1.2.1)]

/-- A request answered at acceptance with no effect of its owner (R169). -/
theorem request_replied (s : State) (p : Port) (t : Tag) (k : Kind) (owner : State → State × Reply)
    (code : ResultCode) (data : List Byte) (h : s.Ready p t)
    (ho : owner (s.openTag p t k.code) = (s.openTag p t k.code, .done code data)) :
    s.request p t k owner = s.answered p t k.code code data :=
  request_answered s s p t k owner code data h ho rfl

/-- A request that waits leaves its owner's effect and its open tag (R169). -/
theorem request_waits (s s' : State) (p : Port) (t : Tag) (k : Kind) (owner : State → State × Reply)
    (h : s.Ready p t) (ho : owner (s.openTag p t k.code) = (s'.openTag p t k.code, .waits)) :
    s.request p t k owner = s'.accepted p t k.code := by
  rw [request_of_ready _ _ _ _ _ h, ho]
  rfl

/-- A request to a port without a session (R169). -/
theorem request_not_attached (s : State) (p : Port) (t : Tag) (k : Kind) (owner : State → State × Reply)
    (h : s.Admits p t) (hs : (s.port p).session = .detached) (hk : k ≠ .portAttach) :
    s.request p t k owner = s.answered p t k.code .notAttached [] := by
  rw [request, submit_of_admits _ _ _ _ _ _ h]
  simp only [accept, attached, hs]
  rw [if_pos ⟨by simpa using hk, rfl⟩, answerTag_openTag _ _ _ _ _ _ h.2.1]
  rfl

/-- A frame whose tag is open (R167, R168). -/
theorem submit_tag_in_use (s : State) (p : Port) (t : Tag) (k : Byte) (needs : Bool) (owner : State → State × Reply)
    (h : s.Takes p) (ht : ∃ e ∈ (s.port p).openTags, e.tag = t) :
    s.submit p t k needs owner = (s.refuse p t k .tagInUse).updateAttention := by
  have h4 : s.tagOpen p t = true := by simpa [tagOpen] using ht
  rw [submit, transaction_of_takes _ _ _ h]
  simp [h4]

/-- A frame that finds 4 other tags open (R167, R168). -/
theorem submit_busy (s : State) (p : Port) (t : Tag) (k : Byte) (needs : Bool) (owner : State → State × Reply)
    (h : s.Takes p) (ht : ∀ e ∈ (s.port p).openTags, e.tag ≠ t) (hl : 4 ≤ (s.port p).openTags.length) :
    s.submit p t k needs owner = (s.refuse p t k .busy).updateAttention := by
  have h4 : s.tagOpen p t = false := by simpa [tagOpen] using ht
  rw [submit, transaction_of_takes _ _ _ h]
  simp [h4, Config.tagCapacity, hl]

/-! ## Reference checks -/

theorem withRef_bad (s : State) (slot gen : Byte) (go : SlotNo → State × Reply) (h : 128 ≤ slot.toNat) :
    s.withRef slot gen go = s.reply .badArgument := by
  simp [withRef, slotOf, Nat.not_lt.2 h]

theorem withRef_good (s : State) (i : SlotNo) (gen : Byte) (go : SlotNo → State × Reply) (h : s.names i gen = true) :
    s.withRef (byte i.val) gen go = go i := by
  simp [withRef, slotOf_byte, h]

theorem withRef_stale (s : State) (i : SlotNo) (gen : Byte) (go : SlotNo → State × Reply) (h : s.names i gen = false) :
    s.withRef (byte i.val) gen go = s.reply .staleRef := by
  simp [withRef, slotOf_byte, h]

end State
end Sys2Proof.Machine
end

