-- ==== Sys2Proof/Laws/Actions.lean ====
section
/-! SUPPORT. What the operations of the action unit can do, said once: an invocation, the use of a budget, a restore offer,
and what each leaves alone. -/

namespace Sys2Proof.Machine
namespace State

/-! ## The use of a budget (R145, R146) -/

/-- A drive that leaves budget takes one unit of it (R145). -/
theorem useBudget_left (s : State) (a : ActionNo) (h : 2 ≤ (s.action a).budget) :
    s.useBudget a = s.setAction a { s.action a with budget := (s.action a).budget - 1 } := by
  simp [useBudget, Nat.not_le.2 h]

/-- The drive that uses the last unit spends the action and clears every link to it (R146). -/
theorem useBudget_spent (s : State) (a : ActionNo) (h : (s.action a).budget ≤ 1) :
    s.useBudget a =
      (s.clearLinks a).setAction a { s.action a with state := .spent, budget := 0, linkCount := 0 } := by
  simp [useBudget, h]

theorem clearLinks_slot (s : State) (a : ActionNo) (i : SlotNo) : (s.clearLinks a).slot i =
    if (s.slot i).link = some a then { s.slot i with link := none } else s.slot i := by
  simp [clearLinks]

/-- Of a point record, the use of a budget writes the link alone (R146). -/
theorem useBudget_slot (s : State) (a : ActionNo) (i : SlotNo) : ∃ l, (s.useBudget a).slot i = { s.slot i with link := l } := by
  rcases Nat.lt_or_ge 1 (s.action a).budget with h | h
  · exact ⟨(s.slot i).link, by rw [useBudget_left s a h]; rfl⟩
  · rw [useBudget_spent s a h, setAction_slot, clearLinks_slot]
    split
    · exact ⟨none, rfl⟩
    · exact ⟨(s.slot i).link, rfl⟩

theorem useBudget_action_ne (s : State) (a b : ActionNo) (h : a ≠ b) : (s.useBudget a).action b = s.action b := by
  simp only [useBudget]
  split
  · rw [action_setAction_ne _ _ _ _ h]; rfl
  · rw [action_setAction_ne _ _ _ _ h]

/-- The parts of the state other than the point records, the actions and the outputs. -/
def SameButActions (s u : State) : Prop :=
  u.pending = s.pending ∧ u.now = s.now ∧ u.freeIndex = s.freeIndex ∧ u.rstAsserted = s.rstAsserted ∧
    u.keyMap = s.keyMap ∧ u.classes = s.classes ∧ u.frontEnd = s.frontEnd ∧ u.notices = s.notices ∧
    u.raiseSeq = s.raiseSeq ∧ u.waits = s.waits ∧ u.portH = s.portH ∧ u.portL = s.portL

theorem useBudget_same (s : State) (a : ActionNo) : SameButActions s (s.useBudget a) := by
  simp only [useBudget]
  split <;> exact ⟨rfl, rfl, rfl, rfl, rfl, rfl, rfl, rfl, rfl, rfl, rfl, rfl⟩

@[simp] theorem useBudget_output (s : State) (a : ActionNo) (o : OutputNo) : (s.useBudget a).output o = s.output o := by
  simp only [useBudget]
  split <;> rfl

/-! ## Invocations (R143 to R147) -/

/-- An invocation whose channel is pinned does nothing but report it (R143, R147). -/
theorem invoke_blocked (s : State) (a : ActionNo) (i : SlotNo) (h : (s.output (s.action a).output).pin ≠ none) :
    s.invoke a i = (s, .blocked, some .actionBlocked) := by
  simp [invoke, Option.isSome_iff_ne_none, h]

/-- An invocation that drives (R144, R145, R146). -/
theorem invoke_drives (s : State) (a : ActionNo) (i : SlotNo) (h : (s.output (s.action a).output).pin = none) :
    s.invoke a i = ((s.setOutput (s.action a).output ((s.output (s.action a).output).driven a (s.action a) i)).useBudget a,
      if (s.action a).suppress then .suppressed else .notSuppressed,
      if (s.action a).budget ≤ 1 ∧ (s.action a).notifySpent = true then some .actionSpent else none) := by
  simp [invoke, h]

theorem invoke_same (s : State) (a : ActionNo) (i : SlotNo) : SameButActions s (s.invoke a i).1 := by
  cases h : (s.output (s.action a).output).pin with
  | none =>
    rw [invoke_drives s a i h]
    exact useBudget_same _ a
  | some p =>
    rw [invoke_blocked s a i (by simp [h])]
    exact ⟨rfl, rfl, rfl, rfl, rfl, rfl, rfl, rfl, rfl, rfl, rfl, rfl⟩

/-- Of a point record, an invocation writes the link alone (R146). -/
theorem invoke_slot (s : State) (a : ActionNo) (i j : SlotNo) :
    ∃ l, (s.invoke a i).1.slot j = { s.slot j with link := l } := by
  cases h : (s.output (s.action a).output).pin with
  | none =>
    rw [invoke_drives s a i h]
    exact useBudget_slot _ a j
  | some p =>
    rw [invoke_blocked s a i (by simp [h])]
    exact ⟨(s.slot j).link, rfl⟩

/-! ## Restore offers (R148) -/

/-- A restore offer writes its action's channel and nothing else. -/
theorem offerRestore_frame (s : State) (a : ActionNo) (i : SlotNo) :
    ∃ r, s.offerRestore a i = s.setOutput (s.action a).output r := by
  simp only [offerRestore]
  split
  · exact ⟨_, (setOutput_output_self s _).symm⟩
  · split
    · split
      · exact ⟨_, rfl⟩
      · exact ⟨_, rfl⟩
    · exact ⟨_, (setOutput_output_self s _).symm⟩

theorem offerRestore_restores (s : State) (a : ActionNo) (i : SlotNo) (v : Level)
    (hw : (s.output (s.action a).output).lastWriter = .action a i)
    (hs : (s.output (s.action a).output).saved = some v) (hp : (s.output (s.action a).output).pin = none) :
    s.offerRestore a i = s.setOutput (s.action a).output
      { s.output (s.action a).output with value := v, lastWriter := .restore, saved := none } := by
  simp [offerRestore, hs, (isDrive_iff a i _).2 hw, hp]

theorem offerRestore_pinned (s : State) (a : ActionNo) (i : SlotNo) (v : Level)
    (hw : (s.output (s.action a).output).lastWriter = .action a i)
    (hs : (s.output (s.action a).output).saved = some v) (hp : (s.output (s.action a).output).pin ≠ none) :
    s.offerRestore a i = s.setOutput (s.action a).output { s.output (s.action a).output with saved := none } := by
  simp [offerRestore, hs, (isDrive_iff a i _).2 hw, Option.isSome_iff_ne_none, hp]

theorem offerRestore_nothing (s : State) (a : ActionNo) (i : SlotNo)
    (h : (s.output (s.action a).output).lastWriter ≠ .action a i ∨ (s.output (s.action a).output).saved = none) :
    s.offerRestore a i = s := by
  simp only [offerRestore]
  cases hs : (s.output (s.action a).output).saved with
  | none => rfl
  | some v =>
    rw [hs] at h
    simp [Bool.eq_false_iff.2 fun e => (h.resolve_right (by simp)) ((isDrive_iff a i _).1 e)]

end State
end Sys2Proof.Machine
end

