-- ==== Sys2Proof/Laws/Notices.lean ====
section
/-! SUPPORT. What the operations of the notice unit can do, said once: a raise, the choice of a fetch, the service of the
waits, and what each leaves alone. -/

namespace Sys2Proof.Machine

/-! ## The order of notices (R122) -/

/-- A notice is not before another exactly when the other is at least as good a choice. -/
theorem not_before (a b : Notice) : a.before b = false ↔
    a.severity < b.severity ∨ (a.severity = b.severity ∧ b.seq.toNat ≤ a.seq.toNat) := by
  simp only [Notice.before, Bool.or_eq_false_iff, decide_eq_false_iff_not, Bool.and_eq_false_iff, beq_eq_false_iff_ne,
    not_lt, ne_eq]
  constructor
  · rintro ⟨h1, h2 | h2⟩
    · exact .inl (lt_of_le_of_ne h1 h2)
    · rcases lt_or_eq_of_le h1 with h | h
      · exact .inl h
      · exact .inr ⟨h, h2⟩
  · rintro (h | ⟨h1, h2⟩)
    · exact ⟨h.le, .inl h.ne⟩
    · exact ⟨h1.le, .inr h2⟩

theorem before_iff (a b : Notice) : a.before b = true ↔
    b.severity < a.severity ∨ (a.severity = b.severity ∧ a.seq.toNat < b.seq.toNat) := by
  simp [Notice.before]

namespace State

/-! ## Deliverability (R119) -/

theorem route_admits_iff (r : Route) (p : Port) :
    r.admits p = true ↔ r = .either ∨ (r = .h ∧ p = .H) ∨ (r = .l ∧ p = .L) := by
  cases r <;> cases p <;> simp [Route.admits]

theorem deliverable_eq_some (s : State) (p : Port) (i : SlotNo) (n : Notice) :
    s.deliverable p i = some n ↔ s.notice i = some n ∧ n.state = .pending ∧
      (s.slot i).cfg.route.admits p = true ∧ (s.port p).threshold ≤ n.severity ∧ s.attached p = true := by
  simp only [deliverable]
  cases h : s.notice i with
  | none => simp
  | some m =>
    simp only [Option.ite_none_right_eq_some, Option.some.injEq]
    constructor
    · rintro ⟨h, rfl⟩; exact ⟨rfl, h⟩
    · rintro ⟨rfl, h⟩; exact ⟨h, rfl⟩

/-- Deliverability depends on the notice, the route, the threshold and the session alone. -/
theorem deliverable_congr (s t : State) (p : Port) (i : SlotNo) (hn : s.notice i = t.notice i)
    (hr : (s.slot i).cfg.route = (t.slot i).cfg.route) (ht : (s.port p).threshold = (t.port p).threshold)
    (hs : (s.port p).session = (t.port p).session) : s.deliverable p i = t.deliverable p i := by
  simp [deliverable, attached, hn, hr, ht, hs]

@[simp] theorem deliverable_openTag (s : State) (p q : Port) (t : Tag) (k : Byte) (i : SlotNo) :
    (s.openTag p t k).deliverable q i = s.deliverable q i := by
  apply deliverable_congr <;> simp

theorem deliverable_detached (s : State) (p : Port) (i : SlotNo) (h : (s.port p).session = .detached) :
    s.deliverable p i = none := by
  simp [deliverable, attached, h]
  cases s.notice i <;> rfl

theorem anyDeliverable_eq_false (s : State) (p : Port) :
    s.anyDeliverable p = false ↔ ∀ i, s.deliverable p i = none := by
  simp [anyDeliverable, allSlots]

/-! ## The choice of a fetch (R122) -/

theorem bestAmong_eq_none (s : State) (p : Port) (l : List SlotNo) :
    s.bestAmong p l = none ↔ ∀ i ∈ l, s.deliverable p i = none := by
  induction l with
  | nil => simp [bestAmong]
  | cons i l ih =>
    simp only [bestAmong, List.forall_mem_cons, ← ih]
    cases h : s.deliverable p i <;> cases h' : s.bestAmong p l <;> simp
    split <;> simp

theorem bestAmong_spec (s : State) (p : Port) (l : List SlotNo) (i : SlotNo) (n : Notice)
    (h : s.bestAmong p l = some (i, n)) :
    s.deliverable p i = some n ∧ ∀ j ∈ l, ∀ m, s.deliverable p j = some m → m.before n = false := by
  induction l generalizing i n with
  | nil => simp [bestAmong] at h
  | cons a l ih =>
    simp only [bestAmong] at h
    cases ha : s.deliverable p a with
    | none =>
      rw [ha] at h
      obtain ⟨h1, h2⟩ := ih i n h
      exact ⟨h1, List.forall_mem_cons.2 ⟨fun m hm => by simp [ha] at hm, h2⟩⟩
    | some b =>
      cases hr : s.bestAmong p l with
      | none =>
        simp only [ha, hr, Option.some.injEq, Prod.mk.injEq] at h
        obtain ⟨rfl, rfl⟩ := h
        refine ⟨ha, List.forall_mem_cons.2 ⟨fun m hm => ?_, fun j hj m hm => ?_⟩⟩
        · rw [ha] at hm; cases hm; simp [not_before]
        · rw [(bestAmong_eq_none s p l).1 hr j hj] at hm; cases hm
      | some x =>
        obtain ⟨j, m⟩ := x
        obtain ⟨h1, h2⟩ := ih j m hr
        simp only [ha, hr] at h
        split at h
        · rename_i hb
          simp only [Option.some.injEq, Prod.mk.injEq] at h
          obtain ⟨rfl, rfl⟩ := h
          refine ⟨h1, List.forall_mem_cons.2 ⟨fun m' hm => ?_, h2⟩⟩
          rw [ha] at hm; cases hm
          rw [before_iff] at hb; rw [not_before]
          rcases hb with hb | ⟨hb, hc⟩
          · exact .inl hb
          · exact .inr ⟨hb.symm, hc.le⟩
        · rename_i hb
          simp only [Option.some.injEq, Prod.mk.injEq] at h
          obtain ⟨rfl, rfl⟩ := h
          refine ⟨ha, List.forall_mem_cons.2 ⟨fun m' hm => ?_, fun k hk m' hm => ?_⟩⟩
          · rw [ha] at hm; cases hm; simp [not_before]
          · have h3 := h2 k hk m' hm
            have hb := Bool.eq_false_iff.2 hb
            rw [not_before] at h3 hb ⊢
            rcases h3 with h3 | ⟨h3, h4⟩ <;> rcases hb with hb | ⟨hb, hc⟩
            · exact .inl (h3.trans hb)
            · exact .inl (hb ▸ h3)
            · exact .inl (h3 ▸ hb)
            · exact .inr ⟨h3.trans hb, hc.trans h4⟩

theorem best_eq_none (s : State) (p : Port) : s.best p = none ↔ ∀ i, s.deliverable p i = none := by
  simp [best, bestAmong_eq_none, allSlots]

/-- What a fetch chooses is deliverable, and no deliverable notice is before it (R122). -/
theorem best_isBest (s : State) (p : Port) (i : SlotNo) (n : Notice) (h : s.best p = some (i, n)) :
    s.IsBest p i n := by
  obtain ⟨h1, h2⟩ := bestAmong_spec s p allSlots i n h
  exact ⟨h1, fun j m hm => (not_before m n).1 (h2 j (List.mem_finRange j) m hm)⟩

theorem fetch_eq_none (s : State) (p : Port) : s.fetch p = none ↔ ∀ i, s.deliverable p i = none := by
  simp [fetch, best_eq_none]

/-- A fetch that delivers, delivers a best notice and changes nothing else (R122, R123). -/
theorem fetch_of_deliverable (s : State) (p : Port) (h : ∃ i, s.deliverable p i ≠ none) :
    ∃ i n, s.IsBest p i n ∧ s.best p = some (i, n) ∧
      s.fetch p = some (s.setNotice i (some { n with state := .delivered p }), noticeBytes i n) := by
  cases hb : s.best p with
  | none => exact absurd ((best_eq_none s p).1 hb) (by simpa using h)
  | some x => exact ⟨x.1, x.2, best_isBest s p x.1 x.2 hb, rfl, by simp [fetch, hb]⟩

theorem best_congr (s t : State) (p : Port) (h : ∀ i, s.deliverable p i = t.deliverable p i) :
    s.best p = t.best p := by
  have : ∀ l, s.bestAmong p l = t.bestAmong p l := fun l => by
    induction l with
    | nil => rfl
    | cons i l ih => simp only [bestAmong, h, ih]
  exact this _

@[simp] theorem best_openTag (s : State) (p q : Port) (t : Tag) (k : Byte) : (s.openTag p t k).best q = s.best q :=
  best_congr _ _ _ fun _ => by simp

theorem fetch_openTag (s : State) (p q : Port) (t : Tag) (k : Byte) :
    (s.openTag p t k).fetch q = (s.fetch q).map fun x => (x.1.openTag p t k, x.2) := by
  simp only [fetch, best_openTag, Option.map_map]
  congr 1
  funext x
  simp

/-! ## Raises (R112, R113, R114) -/

theorem raise_of_none (s : State) (i : SlotNo) (cause : Cause) (x : Condition) (h : s.notice i = none) :
    s.raise i cause x = s.countRaise.setNotice i
      (some (Notice.fresh (s.slot i).gen cause x (s.slot i).cfg.severity (s.raiseSeq + 1))) := by
  simp [raise, h]

theorem raise_of_pending (s : State) (i : SlotNo) (cause : Cause) (x : Condition) (n : Notice) (h : s.notice i = some n)
    (hs : n.state = .pending) : s.raise i cause x = s.setNotice i (some (n.fold cause x (s.slot i).cfg.severity)) := by
  simp [raise, h, hs]

theorem raise_of_delivered (s : State) (i : SlotNo) (cause : Cause) (x : Condition) (n : Notice) (p : Port)
    (h : s.notice i = some n) (hs : n.state = .delivered p) :
    s.raise i cause x = s.setNotice i (some (n.hold cause x (s.slot i).cfg.severity)) := by
  simp [raise, h, hs]

/-- A raise writes its point's notice and the raise sequence counter, and nothing else (R112 to R114). -/
theorem raise_frame (s : State) (i : SlotNo) (cause : Cause) (x : Condition) :
    ∃ n q, s.raise i cause x = { s with raiseSeq := q }.setNotice i (some n) ∧ n.gen =
      (match s.notice i with
        | none => (s.slot i).gen
        | some m => m.gen) := by
  cases h : s.notice i with
  | none => exact ⟨_, s.raiseSeq + 1, raise_of_none s i cause x h, rfl⟩
  | some n =>
    cases hs : n.state with
    | pending => exact ⟨_, s.raiseSeq, raise_of_pending s i cause x n h hs, rfl⟩
    | delivered p =>
      refine ⟨_, s.raiseSeq, raise_of_delivered s i cause x n p h hs, ?_⟩
      simp only [Notice.hold]
      cases n.followOn <;> rfl

@[simp] theorem raise_slot (s : State) (i j : SlotNo) (cause : Cause) (x : Condition) :
    (s.raise i cause x).slot j = s.slot j := by
  obtain ⟨n, q, h, -⟩ := raise_frame s i cause x; rw [h]; rfl

@[simp] theorem raise_action (s : State) (i : SlotNo) (cause : Cause) (x : Condition) (a : ActionNo) :
    (s.raise i cause x).action a = s.action a := by
  obtain ⟨n, q, h, -⟩ := raise_frame s i cause x; rw [h]; rfl

@[simp] theorem raise_output (s : State) (i : SlotNo) (cause : Cause) (x : Condition) (o : OutputNo) :
    (s.raise i cause x).output o = s.output o := by
  obtain ⟨n, q, h, -⟩ := raise_frame s i cause x; rw [h]; rfl

@[simp] theorem raise_cls (s : State) (i : SlotNo) (cause : Cause) (x : Condition) (c : ClassNo) :
    (s.raise i cause x).cls c = s.cls c := by
  obtain ⟨n, q, h, -⟩ := raise_frame s i cause x; rw [h]; rfl

@[simp] theorem raise_port (s : State) (i : SlotNo) (cause : Cause) (x : Condition) (p : Port) :
    (s.raise i cause x).port p = s.port p := by
  obtain ⟨n, q, h, -⟩ := raise_frame s i cause x; rw [h]; cases p <;> rfl

theorem raise_rest (s : State) (i : SlotNo) (cause : Cause) (x : Condition) :
    (s.raise i cause x).pending = s.pending ∧ (s.raise i cause x).now = s.now ∧
      (s.raise i cause x).freeIndex = s.freeIndex ∧ (s.raise i cause x).rstAsserted = s.rstAsserted ∧
      (s.raise i cause x).slots = s.slots ∧ (s.raise i cause x).keyMap = s.keyMap ∧
      (s.raise i cause x).classes = s.classes ∧ (s.raise i cause x).frontEnd = s.frontEnd ∧
      (s.raise i cause x).waits = s.waits ∧ (s.raise i cause x).actions = s.actions ∧
      (s.raise i cause x).outputs = s.outputs := by
  obtain ⟨n, q, h, -⟩ := raise_frame s i cause x
  rw [h]
  exact ⟨rfl, rfl, rfl, rfl, rfl, rfl, rfl, rfl, rfl, rfl, rfl⟩

/-- A raise beside a request's open tag. -/
@[simp] theorem raise_openTag (s : State) (p : Port) (t : Tag) (k : Byte) (i : SlotNo) (cause : Cause) (x : Condition) :
    (s.openTag p t k).raise i cause x = (s.raise i cause x).openTag p t k := by
  simp only [raise, openTag_notice]
  cases s.notice i with
  | none => simp
  | some n => cases h : n.state <;> simp [h]

/-! ## The service of the waits (R125, R126) -/

/-- An answer to another waiting request beside a request's open tag. -/
theorem answerTag_openTag_ne (s : State) (p q : Port) (t u : Tag) (k : Byte) (code : ResultCode) (data : List Byte)
    (h : (q, u) ≠ (p, t)) :
    (s.openTag p t k).answerTag q u code data = (s.answerTag q u code data).openTag p t k := by
  by_cases hq : q = p
  · subst hq
    have hu : u ≠ t := fun e => h (by rw [e])
    have h1 : (s.openTag q t k).waitingTag q u = s.waitingTag q u := by
      simp [waitingTag, openTag, List.find?_append, hu.symm]
    simp only [answerTag, h1]
    cases s.waitingTag q u with
    | none => rfl
    | some e => simp [openTag, hu.symm]
  · have h1 : (s.openTag p t k).port q = s.port q := by simp [openTag, port_setPort_ne _ _ _ _ (Ne.symm hq)]
    have h2 : (s.openTag p t k).waitingTag q u = s.waitingTag q u := by simp [waitingTag, h1]
    simp only [answerTag, h2, h1]
    cases s.waitingTag q u with
    | none => rfl
    | some e =>
      cases p <;> cases q <;> first
        | exact absurd rfl hq
        | rfl

theorem dropWait_openTag (s : State) (p q : Port) (t : Tag) (k : Byte) :
    (s.openTag p t k).dropWait q = (s.dropWait q).openTag p t k := by
  simp [dropWait]

/-- The service of a wait of another tag beside a request's open tag. -/
theorem serveWait_openTag (s : State) (p : Port) (t : Tag) (k : Byte) (w : WaitRec) (h : (w.port, w.tag) ≠ (p, t)) :
    (s.openTag p t k).serveWait w = (s.serveWait w).openTag p t k := by
  simp only [serveWait, fetch_openTag]
  cases s.fetch w.port with
  | none => rfl
  | some x => simp [dropWait_openTag, answerTag_openTag_ne _ _ _ _ _ _ _ _ h]

theorem foldl_serveWait_openTag (ws : List WaitRec) (s : State) (p : Port) (t : Tag) (k : Byte)
    (h : ∀ w ∈ ws, (w.port, w.tag) ≠ (p, t)) :
    ws.foldl serveWait (s.openTag p t k) = (ws.foldl serveWait s).openTag p t k := by
  induction ws generalizing s with
  | nil => rfl
  | cons w ws ih =>
    rw [List.forall_mem_cons] at h
    simp only [List.foldl_cons, serveWait_openTag _ _ _ _ _ h.1]
    exact ih _ h.2

/-- The service of the waits beside the open tag of a request that is none of them. -/
theorem serveWaits_openTag (s : State) (p : Port) (t : Tag) (k : Byte) (h : ∀ w ∈ s.waits, (w.port, w.tag) ≠ (p, t)) :
    (s.openTag p t k).serveWaits = s.serveWaits.openTag p t k := by
  simp only [serveWaits, openTag_waits]
  exact foldl_serveWait_openTag _ _ _ _ _ h

/-- Under the law of the waiting requests, a tag that is not open is no waiting request's (R177). -/
theorem waits_tag_ne (s : State) (p : Port) (t : Tag) (hw : WaitingLaw s) (h : ∀ e ∈ (s.port p).openTags, e.tag ≠ t) :
    ∀ w ∈ s.waits, (w.port, w.tag) ≠ (p, t) := by
  intro w hm he
  have : (p, t) ∈ s.waitingRequests := by
    rw [← he]
    exact List.mem_append_right _ (List.mem_map.2 ⟨w, hm, rfl⟩)
  obtain ⟨e, he, h1, -⟩ := (hw.2.2.1 p t).1 this
  exact h e he h1

/-- Where nothing is deliverable to a waiting port, the service of the waits does nothing (R121). -/
theorem serveWaits_idle (s : State) (h : ∀ w ∈ s.waits, ∀ i, s.deliverable w.port i = none) : s.serveWaits = s := by
  have : ∀ ws : List WaitRec, (∀ w ∈ ws, ∀ i, s.deliverable w.port i = none) → ws.foldl serveWait s = s := by
    intro ws
    induction ws with
    | nil => intro _; rfl
    | cons w ws ih =>
      intro hw
      rw [List.forall_mem_cons] at hw
      simp only [List.foldl_cons, serveWait, (fetch_eq_none s w.port).2 hw.1]
      exact ih hw.2
  exact this s.waits h

/-! ## What the service of the waits leaves alone -/

theorem answerTag_records (s : State) (p : Port) (t : Tag) (code : ResultCode) (data : List Byte) :
    ∃ r, s.answerTag p t code data = s.setPort p r ∧ r.session = (s.port p).session ∧
      r.threshold = (s.port p).threshold ∧ r.timeoutSteps = (s.port p).timeoutSteps := by
  simp only [answerTag]
  cases s.waitingTag p t with
  | none => exact ⟨s.port p, by simp, rfl, rfl, rfl⟩
  | some e => exact ⟨_, rfl, rfl, rfl, rfl⟩

/-- The parts of the state that the service of the waits never writes. -/
def SameButNotices (s u : State) : Prop :=
  u.pending = s.pending ∧ u.now = s.now ∧ u.freeIndex = s.freeIndex ∧ u.rstAsserted = s.rstAsserted ∧
    u.slots = s.slots ∧ u.keyMap = s.keyMap ∧ u.classes = s.classes ∧ u.frontEnd = s.frontEnd ∧
    u.raiseSeq = s.raiseSeq ∧ u.actions = s.actions ∧ u.outputs = s.outputs

theorem SameButNotices.trans {s u v : State} (h : SameButNotices s u) (h' : SameButNotices u v) : SameButNotices s v := by
  obtain ⟨a1, a2, a3, a4, a5, a6, a7, a8, a9, a10, a11⟩ := h
  obtain ⟨b1, b2, b3, b4, b5, b6, b7, b8, b9, b10, b11⟩ := h'
  exact ⟨b1.trans a1, b2.trans a2, b3.trans a3, b4.trans a4, b5.trans a5, b6.trans a6, b7.trans a7, b8.trans a8,
    b9.trans a9, b10.trans a10, b11.trans a11⟩

theorem serveWait_same (s : State) (w : WaitRec) : SameButNotices s (s.serveWait w) := by
  simp only [serveWait, fetch]
  cases s.best w.port with
  | none => exact ⟨rfl, rfl, rfl, rfl, rfl, rfl, rfl, rfl, rfl, rfl, rfl⟩
  | some x =>
    simp only [Option.map_some]
    obtain ⟨r, h, -⟩ := answerTag_records
      ((s.setNotice x.1 (some { x.2 with state := .delivered w.port })).dropWait w.port) w.port w.tag .ok
      (noticeBytes x.1 x.2)
    rw [h]
    simp [SameButNotices, dropWait]

/-- The service of the waits writes notices, the list of waits and the ports' tags and queues alone (R125). -/
theorem serveWaits_same (s : State) : SameButNotices s s.serveWaits := by
  have : ∀ (ws : List WaitRec) (u : State), SameButNotices s u → SameButNotices s (ws.foldl serveWait u) := by
    intro ws
    induction ws with
    | nil => intro u h; exact h
    | cons w ws ih => intro u h; exact ih _ (h.trans (serveWait_same u w))
  exact this s.waits s ⟨rfl, rfl, rfl, rfl, rfl, rfl, rfl, rfl, rfl, rfl, rfl⟩

end State
end Sys2Proof.Machine
end

