-- ==== Sys2Proof/Laws/Attention.lean ====
section
/-! SUPPORT. What the setting of the attention lines at the end of an event does, said once: it writes the two lines, and
nothing else in the part looks at them (R173). -/

namespace Sys2Proof.Machine
namespace State

theorem attentionNeeded_congr (s t : State) (p : Port) (hr : (s.port p).refusals = (t.port p).refusals)
    (hq : (s.port p).queue = (t.port p).queue) (hd : ∀ i, s.deliverable p i = t.deliverable p i) :
    s.attentionNeeded p = t.attentionNeeded p := by
  simp [attentionNeeded, anyDeliverable, hr, hq, hd]

theorem attentionNeeded_setAttention (s : State) (p q : Port) :
    (s.setAttention p).attentionNeeded q = s.attentionNeeded q := by
  have h : (s.setAttention p).port q = { s.port q with attention := ((s.setAttention p).port q).attention } := by
    cases p <;> cases q <;> rfl
  refine attentionNeeded_congr _ _ _ (by rw [h]) (by rw [h]) fun i => deliverable_congr _ _ _ _ ?_ ?_ (by rw [h]) (by rw [h])
  · simp [setAttention]
  · simp [setAttention]

theorem updateAttention_eq (s : State) : s.updateAttention = { s with
    portH := { s.portH with attention := s.attentionNeeded .H }
    portL := { s.portL with attention := s.attentionNeeded .L } } := by
  have h := attentionNeeded_setAttention s .H .L
  simp only [updateAttention]
  rw [setAttention, h]
  rfl

/-- An event that ends with the setting of the lines leaves them showing what stands (R173). -/
theorem updateAttention_law (s : State) : AttentionLaw s.updateAttention := by
  have h : ∀ q, s.updateAttention.attentionNeeded q = s.attentionNeeded q := by
    intro q
    simp only [updateAttention, attentionNeeded_setAttention]
  constructor
  · rw [h, updateAttention_eq]
  · rw [h, updateAttention_eq]

@[simp] theorem updateAttention_pending (s : State) : s.updateAttention.pending = s.pending := by simp [updateAttention_eq]
@[simp] theorem updateAttention_now (s : State) : s.updateAttention.now = s.now := by simp [updateAttention_eq]
@[simp] theorem updateAttention_rstAsserted (s : State) : s.updateAttention.rstAsserted = s.rstAsserted := by
  simp [updateAttention_eq]
@[simp] theorem updateAttention_slot (s : State) (i : SlotNo) : s.updateAttention.slot i = s.slot i := by
  simp [updateAttention, setAttention]
@[simp] theorem updateAttention_keyMap (s : State) : s.updateAttention.keyMap = s.keyMap := by simp [updateAttention_eq]
@[simp] theorem updateAttention_cls (s : State) (c : ClassNo) : s.updateAttention.cls c = s.cls c := by
  simp [updateAttention, setAttention]
@[simp] theorem updateAttention_frontEnd (s : State) : s.updateAttention.frontEnd = s.frontEnd := by
  simp [updateAttention_eq]
@[simp] theorem updateAttention_notice (s : State) (i : SlotNo) : s.updateAttention.notice i = s.notice i := by
  simp [updateAttention, setAttention]
@[simp] theorem updateAttention_raiseSeq (s : State) : s.updateAttention.raiseSeq = s.raiseSeq := by
  simp [updateAttention_eq]
@[simp] theorem updateAttention_waits (s : State) : s.updateAttention.waits = s.waits := by simp [updateAttention_eq]
@[simp] theorem updateAttention_action (s : State) (a : ActionNo) : s.updateAttention.action a = s.action a := by
  simp [updateAttention, setAttention]
@[simp] theorem updateAttention_output (s : State) (o : OutputNo) : s.updateAttention.output o = s.output o := by
  simp [updateAttention, setAttention]

end State
end Sys2Proof.Machine
end

