-- ==== Sys2Proof/Laws/Collect.lean ====
section
/-! SUPPORT. What a COLLECT can do, said once: each part of it changes its own port's record and nothing else, by the
phase it finds (R172); and the reading of an input at a gain as a number (R70). -/

namespace Sys2Proof.Machine

/-- The reading of an input as a number: the amplified input in whole steps, held in the range (R70). -/
theorem Gain.reading_toNat (g : Gain) (input : Int) :
    ((g.reading input).toNat : Int) = max 0 (min 16383 ((input * g.factor).fdiv 64)) := by
  simp only [Gain.reading, BitVec.toNat_ofNat]
  omega

theorem Gain.factor_pos (g : Gain) : 0 < g.factor := by cases g <;> decide

namespace State

theorem clockOut_eq (sent : List Byte) (n : Nat) : clockOut sent n = (sent ++ List.replicate n 0xFF).take n := by
  simp [clockOut, List.take_append, List.take_replicate]

@[simp] theorem clockOut_length (sent : List Byte) (n : Nat) : (clockOut sent n).length = n := by
  simp [clockOut]
  omega

/-- The bytes of two parts are the bytes of the two together. -/
theorem clockOut_add (sent : List Byte) (n m : Nat) :
    clockOut sent n ++ clockOut (sent.drop n) m = clockOut sent (n + m) := by
  apply List.ext_getElem?
  intro k
  simp only [clockOut_eq, List.getElem?_append, List.getElem?_take, List.length_take, List.length_append,
    List.length_replicate, List.getElem?_replicate, List.getElem?_drop, List.length_drop]
  grind

@[simp] theorem chosenBytes_ne_nil (c : Option (Bool × Answer)) : chosenBytes c ≠ [] := by
  rcases c with _ | ⟨r, a⟩ <;> simp [chosenBytes, responseFrame]

/-- The removal of what was chosen changes its own port's record and nothing else (R172). -/
theorem removeChosen_eq (s : State) (p : Port) (c : Option (Bool × Answer)) :
    s.removeChosen p c = s.setPort p ((s.removeChosen p c).port p) := by
  rcases c with _ | ⟨_ | _, a⟩ <;> cases p <;> rfl

/-- A part that leaves bytes of the chosen answer removes nothing (R172). -/
theorem clockBytes_of_lt (s : State) (p : Port) (n : Nat) (c : Option (Bool × Answer)) (rest : List Byte)
    (h : (s.port p).collecting = some (.frame c rest)) (hn : n < rest.length) :
    s.clockBytes p n = s.drive p (rest.take n) (.frame c (rest.drop n)) := by
  simp [clockBytes, h, hn]

/-- The part with the last byte of what was chosen removes it, and the summary is taken then (R172). -/
theorem clockBytes_of_le (s : State) (p : Port) (n : Nat) (c : Option (Bool × Answer)) (rest : List Byte)
    (h : (s.port p).collecting = some (.frame c rest)) (hn : rest.length ≤ n) :
    s.clockBytes p n = (s.removeChosen p c).drive p (clockOut (rest ++ (s.removeChosen p c).summary p) n)
      (.summary (((s.removeChosen p c).summary p).drop (n - rest.length))) := by
  simp [clockBytes, h, Nat.not_lt.mpr hn]

/-- A part of the summary removes nothing. -/
theorem clockBytes_of_summary (s : State) (p : Port) (n : Nat) (rest : List Byte)
    (h : (s.port p).collecting = some (.summary rest)) :
    s.clockBytes p n = s.drive p (clockOut rest n) (.summary (rest.drop n)) := by
  simp [clockBytes, h]

/-- A part of a COLLECT changes its own port's record and nothing else (R172). -/
theorem clockBytes_eq (s : State) (p : Port) (n : Nat) :
    s.clockBytes p n = s.setPort p ((s.clockBytes p n).port p) := by
  unfold clockBytes
  split
  · cases p <;> rfl
  · cases p <;> rfl
  · cases p <;> rfl
  · split
    · cases p <;> rfl
    · dsimp only
      rw [removeChosen_eq]
      cases p <;> rfl

/-- A part of a COLLECT, begun or gone on with, changes its own port's record and nothing else (R172). -/
theorem collectOn_eq (s : State) (p : Port) (n : Nat) :
    s.collectOn p n = s.setPort p ((s.collectOn p n).port p) := by
  unfold collectOn
  split
  · rw [clockBytes_eq]
    cases p <;> rfl
  · exact clockBytes_eq s p n

/-- The end of a COLLECT changes one field of its port's record. -/
@[simp] theorem endCollect_port (s : State) (p : Port) :
    (s.endCollect p).port p = { s.port p with collecting := none } := by cases p <;> rfl

@[simp] theorem endCollect_port_other (s : State) (p : Port) :
    (s.endCollect p).port p.other = s.port p.other := by cases p <;> rfl

@[simp] theorem endCollect_endCollect (s : State) (p : Port) : (s.endCollect p).endCollect p = s.endCollect p := by
  cases p <;> rfl

end State
end Sys2Proof.Machine
end

