-- ==== Sys2Proof/Laws/Scheduler.lean ====
section
/-! SUPPORT. What the operations of the scan scheduler can do, said once: the stale timers of a list, a trigger, the next
job of a pass, the settling of an insertion and of a removal, and reaching STOPPED. -/

namespace Sys2Proof.Machine
namespace State

/-! ## Stale timers (R50) -/

/-- A start of a point's stale timer, as one write of its record. -/
theorem startTimer_eq (s : State) (i : SlotNo) : s.startTimer i = s.setSlot i { s.slot i with
    staleTimer := match (s.slot i).cfg.staleInterval with
      | none => (s.slot i).staleTimer
      | some ms => some (s.now + ms * 1000) } := by
  simp only [startTimer]
  cases h : (s.slot i).cfg.staleInterval with
  | none => exact (setSlot_slot_self s i).symm
  | some ms => rfl

@[simp] theorem startTimer_now (s : State) (i : SlotNo) : (s.startTimer i).now = s.now := by simp [startTimer_eq]

@[simp] theorem startTimer_cls (s : State) (i : SlotNo) (c : ClassNo) : (s.startTimer i).cls c = s.cls c := by
  simp [startTimer_eq]

theorem startTimer_openTag (s : State) (p : Port) (t : Tag) (k : Byte) (i : SlotNo) :
    (s.openTag p t k).startTimer i = (s.startTimer i).openTag p t k := by
  simp [startTimer_eq]

/-- The parts of the state other than the point records. -/
def SameButSlots (s u : State) : Prop :=
  u.pending = s.pending ∧ u.now = s.now ∧ u.freeIndex = s.freeIndex ∧ u.rstAsserted = s.rstAsserted ∧
    u.keyMap = s.keyMap ∧ u.classes = s.classes ∧ u.frontEnd = s.frontEnd ∧ u.notices = s.notices ∧
    u.raiseSeq = s.raiseSeq ∧ u.waits = s.waits ∧ u.actions = s.actions ∧ u.outputs = s.outputs ∧
    u.portH = s.portH ∧ u.portL = s.portL

theorem SameButSlots.refl (s : State) : SameButSlots s s :=
  ⟨rfl, rfl, rfl, rfl, rfl, rfl, rfl, rfl, rfl, rfl, rfl, rfl, rfl, rfl⟩

theorem SameButSlots.setSlot {s u : State} (h : SameButSlots s u) (i : SlotNo) (r : PointSlot) :
    SameButSlots s (u.setSlot i r) := h

theorem SameButSlots.eq_withSlots {s u : State} (h : SameButSlots s u) (f : SlotNo → PointSlot)
    (hf : ∀ i, u.slot i = f i) : u = s.withSlots f := by
  obtain ⟨h1, h2, h3, h4, h5, h6, h7, h8, h9, h10, h11, h12, h13, h14⟩ := h
  have : u.slots = Vector.ofFn f := Vector.ext fun i hi => by simpa [slot] using hf ⟨i, hi⟩
  cases s
  cases u
  simp_all [withSlots]

/-- The start of the timers of a list: each listed point that has an interval has its timer at the full interval from
now, and nothing else changes (R50, R51). -/
theorem startTimers_spec (es : List ListEntry) (s : State) :
    SameButSlots s (s.startTimers es) ∧ ∀ i, (s.startTimers es).slot i =
      if ∃ e ∈ es, e.slot = i then
        match (s.slot i).cfg.staleInterval with
        | none => s.slot i
        | some ms => { s.slot i with staleTimer := some (s.now + ms * 1000) }
      else s.slot i := by
  induction es generalizing s with
  | nil => exact ⟨SameButSlots.refl s, fun i => by simp [startTimers]⟩
  | cons e es ih =>
    obtain ⟨h1, h2⟩ := ih (s.startTimer e.slot)
    have h1' : SameButSlots s ((s.startTimer e.slot).startTimers es) := by
      rw [startTimer_eq] at h1 ⊢
      exact h1
    refine ⟨h1', fun i => ?_⟩
    change ((s.startTimer e.slot).startTimers es).slot i = _
    rw [h2]
    simp only [startTimer_now, List.mem_cons, exists_eq_or_imp]
    by_cases hi : e.slot = i
    · subst hi
      rw [startTimer_eq, slot_setSlot_self]
      cases hm : (s.slot e.slot).cfg.staleInterval <;> simp
    · rw [startTimer_eq, slot_setSlot_ne _ _ _ _ hi]
      simp [hi]

/-- The stop of the timers of a list: each listed point's timer is stopped, and nothing else changes (R50, R66). -/
theorem stopTimers_spec (es : List ListEntry) (s : State) :
    SameButSlots s (s.stopTimers es) ∧ ∀ i, (s.stopTimers es).slot i =
      if ∃ e ∈ es, e.slot = i then { s.slot i with staleTimer := none } else s.slot i := by
  induction es generalizing s with
  | nil => exact ⟨SameButSlots.refl s, fun i => by simp [stopTimers]⟩
  | cons e es ih =>
    obtain ⟨h1, h2⟩ := ih (s.stopTimer e.slot)
    refine ⟨h1, fun i => ?_⟩
    change ((s.stopTimer e.slot).stopTimers es).slot i = _
    rw [h2]
    simp only [List.mem_cons, exists_eq_or_imp]
    by_cases hi : e.slot = i
    · subst hi
      simp [stopTimer]
    · simp [stopTimer, slot_setSlot_ne _ _ _ _ hi, hi]

/-! ## Passes (R54 to R59) -/

theorem continuePass_posts (s : State) (c : ClassNo) (e : ListEntry) (h : (s.cls c).state = .running)
    (hj : (s.cls c).job = none) (he : (s.cls c).list[(s.cls c).cursor]? = some e) :
    s.continuePass c = s.setCls c { s.cls c with job := some { job := s.jobFor e, phase := .posted } } := by
  simp [continuePass, h, hj, he]

theorem continuePass_completes (s : State) (c : ClassNo) (h : (s.cls c).state = .running) (hj : (s.cls c).job = none)
    (he : (s.cls c).list.length ≤ (s.cls c).cursor) :
    s.continuePass c = s.setCls c { s.cls c with state := .waiting } := by
  simp [continuePass, h, hj, List.getElem?_eq_none he]

/-- The next job of a pass writes its class's state and job and nothing else. -/
theorem continuePass_frame (s : State) (c : ClassNo) : ∃ r, s.continuePass c = s.setCls c r ∧
    r.list = (s.cls c).list := by
  simp only [continuePass]
  split
  · split
    · exact ⟨_, rfl, rfl⟩
    · exact ⟨_, rfl, rfl⟩
  · exact ⟨s.cls c, by simp, rfl⟩

/-- A trigger writes its class's record and nothing else. -/
theorem trigger_frame (s : State) (c : ClassNo) : ∃ r, (s.trigger c).1 = s.setCls c r := by
  simp only [trigger]
  cases (s.cls c).state with
  | waiting =>
    obtain ⟨r, h, -⟩ := continuePass_frame (s.setCls c { s.cls c with
      state := .running, cursor := 0, passSeq := (s.cls c).passSeq + 1 }) c
    exact ⟨r, h.trans (by simp)⟩
  | running => exact ⟨_, rfl⟩
  | stopping => exact ⟨s.cls c, by simp⟩
  | stopped => exact ⟨s.cls c, by simp⟩

/-- What a trigger makes of its class (R55, R56, R59). -/
theorem trigger_triggered (s : State) (c : ClassNo) (h : (s.cls c).state = .waiting → (s.cls c).job = none) :
    s.Triggered (s.cls c) ((s.trigger c).1.cls c) := by
  simp only [Triggered, trigger]
  cases hs : (s.cls c).state with
  | waiting =>
    cases hl : (s.cls c).list with
    | nil =>
      simp only
      rw [continuePass_completes _ _ (by simp) (by simpa using h hs) (by simp)]
      simp [← hs]
    | cons e rest =>
      simp only
      rw [continuePass_posts _ _ e (by simp) (by simpa using h hs) (by simp)]
      simp [jobFor]
  | running => simp
  | stopping => simp
  | stopped => simp

/-! ## Lists (R48, R60 to R63) -/

theorem insertIdx_eq {α : Type} (l : List α) (k : Nat) (a : α) (h : k ≤ l.length) :
    l.insertIdx k a = l.take k ++ [a] ++ l.drop k := by
  induction l generalizing k with
  | nil => simp at h; simp [h]
  | cons b l ih =>
    cases k with
    | zero => simp
    | succ k => simpa using ih k (by simpa using h)

theorem indexOf_append (k : ScanClass) (before after : List ListEntry) (i : SlotNo) (g : Generation)
    (hl : k.list = before ++ { slot := i, gen := g } :: after) (hb : ∀ e ∈ before, e.slot ≠ i ∨ e.gen ≠ g) :
    k.indexOf i g = some before.length := by
  have : before.findIdx? (fun e => e.slot == i && e.gen == g) = none := by
    simpa [imp_iff_not_or] using hb
  simp [ScanClass.indexOf, hl, List.findIdx?_append, this, List.findIdx?_cons]

theorem eraseIdx_append_self {α : Type} (before after : List α) (a : α) :
    (before ++ a :: after).eraseIdx before.length = before ++ after := by
  induction before with
  | nil => rfl
  | cons b l ih => simp [ih]

/-- The settling of a removal writes its class's record and nothing else. -/
theorem removeEntry_frame (s : State) (c : ClassNo) (k : Nat) : ∃ r, s.removeEntry c k = s.setCls c r ∧
    r.list = (s.cls c).list.eraseIdx k := by
  simp only [removeEntry]
  split
  · exact ⟨_, rfl, rfl⟩
  · split
    · exact ⟨_, rfl, rfl⟩
    · cases (s.cls c).job with
      | none => exact ⟨_, rfl, rfl⟩
      | some j =>
        cases hp : j.phase with
        | converting => exact ⟨_, by simp only [hp]; rfl, rfl⟩
        | posted =>
          obtain ⟨r, h, hl⟩ := continuePass_frame
            (s.setCls c { s.cls c with list := (s.cls c).list.eraseIdx k, job := none }) c
          exact ⟨r, by simp only [hp]; rw [h]; simp, by simpa using hl⟩

/-! ## Reaching STOPPED (R66) -/

theorem reachStopped_cls (s : State) (c : ClassNo) : (s.reachStopped c).cls c = { s.cls c with
    state := .stopped, periodTimer := none, cursor := 0, removedMark := false, job := none } := by
  simp [reachStopped]

theorem reachStopped_cls_ne (s : State) (c d : ClassNo) (h : c ≠ d) : (s.reachStopped c).cls d = s.cls d := by
  rw [reachStopped, cls_setCls_ne _ _ _ _ h]
  have := (stopTimers_spec (s.cls c).list s).1.2.2.2.2.2.1
  change (s.stopTimers (s.cls c).list).classes[d] = s.classes[d]
  rw [this]

theorem reachStopped_slot (s : State) (c : ClassNo) (i : SlotNo) : (s.reachStopped c).slot i =
    if ∃ e ∈ (s.cls c).list, e.slot = i then { s.slot i with staleTimer := none } else s.slot i := by
  rw [reachStopped, setCls_slot]
  exact (stopTimers_spec (s.cls c).list s).2 i

end State
end Sys2Proof.Machine
end

