-- ==== Sys2Proof/Laws/Evaluator.lean ====
section
/-! SUPPORT. What the condition evaluator can do, said once: the tests against limits, and what a condition change and the
application of a sample leave alone. -/

namespace Sys2Proof.Machine

/-! ## Limits (R9, R93, R95) -/

theorem atOrAbove_iff (v : Word32) (l : Option Word32) :
    atOrAbove v l = true ↔ ∃ x, l = some x ∧ x.toInt ≤ v.toInt := by
  cases l <;> simp [atOrAbove]

theorem atOrBelow_iff (v : Word32) (l : Option Word32) :
    atOrBelow v l = true ↔ ∃ x, l = some x ∧ v.toInt ≤ x.toInt := by
  cases l <;> simp [atOrBelow]

/-- Under the limit check every low limit is below every high one by more than the deadband (R9). -/
theorem low_lt_high (c : PointConfig) (h : limitCheck c = true) (a b : Option Word32) (ha : a = c.lolo ∨ a = c.lo)
    (hb : b = c.hi ∨ b = c.hihi) (x y : Word32) (hx : a = some x) (hy : b = some y) :
    x.toInt < y.toInt ∧ (c.deadband.toNat : Int) < y.toInt - x.toInt := by
  subst hx hy
  simp only [limitCheck, presentLimits] at h
  rcases ha with ha | ha <;> rcases hb with hb | hb <;> rw [← ha, ← hb] at h
  · cases hl : c.lo <;> cases hh : c.hihi <;> simp [hl, hh, gapsPass] at h <;> omega
  · cases hl : c.lo <;> cases hh : c.hi <;> simp [hl, hh, gapsPass] at h <;> omega
  · cases hl : c.lolo <;> cases hh : c.hihi <;> simp [hl, hh, gapsPass] at h <;> omega
  · cases hl : c.lolo <;> cases hh : c.hi <;> simp [hl, hh, gapsPass] at h <;> omega

namespace State

/-! ## A condition change (R98 to R103) -/

/-- The parts of the state that the evaluator never writes. -/
def SameButPoints (s u : State) : Prop :=
  u.pending = s.pending ∧ u.now = s.now ∧ u.freeIndex = s.freeIndex ∧ u.rstAsserted = s.rstAsserted ∧
    u.keyMap = s.keyMap ∧ u.classes = s.classes ∧ u.frontEnd = s.frontEnd ∧ u.waits = s.waits ∧ u.portH = s.portH ∧
    u.portL = s.portL

theorem SameButPoints.refl (s : State) : SameButPoints s s := ⟨rfl, rfl, rfl, rfl, rfl, rfl, rfl, rfl, rfl, rfl⟩

theorem SameButPoints.trans {s u v : State} (h : SameButPoints s u) (h' : SameButPoints u v) : SameButPoints s v := by
  obtain ⟨a1, a2, a3, a4, a5, a6, a7, a8, a9, a10⟩ := h
  obtain ⟨b1, b2, b3, b4, b5, b6, b7, b8, b9, b10⟩ := h'
  exact ⟨b1.trans a1, b2.trans a2, b3.trans a3, b4.trans a4, b5.trans a5, b6.trans a6, b7.trans a7, b8.trans a8,
    b9.trans a9, b10.trans a10⟩

theorem SameButPoints.ite {s u v : State} {c : Prop} [Decidable c] (h : SameButPoints s u) (h' : SameButPoints s v) :
    SameButPoints s (if c then u else v) := by
  split
  · exact h
  · exact h'

theorem raise_points (s : State) (i : SlotNo) (cause : Cause) (x : Condition) :
    SameButPoints s (s.raise i cause x) := by
  obtain ⟨h1, h2, h3, h4, -, h6, h7, h8, h9, -, -⟩ := raise_rest s i cause x
  exact ⟨h1, h2, h3, h4, h6, h7, h8, h9, raise_port s i cause x .H, raise_port s i cause x .L⟩

theorem invoke_points (s : State) (a : ActionNo) (i : SlotNo) : SameButPoints s (s.invoke a i).1 := by
  obtain ⟨h1, h2, h3, h4, h5, h6, h7, -, -, h10, h11, h12⟩ := invoke_same s a i
  exact ⟨h1, h2, h3, h4, h5, h6, h7, h10, h11, h12⟩

theorem offerRestore_points (s : State) (a : ActionNo) (i : SlotNo) : SameButPoints s (s.offerRestore a i) := by
  obtain ⟨r, h⟩ := offerRestore_frame s a i
  rw [h]
  exact SameButPoints.refl s

theorem followWithdraw_frame (s : State) (i : SlotNo) : ∃ n, (s.followWithdraw i).1 = s.setNotice i n := by
  simp only [followWithdraw]
  cases h : s.notice i with
  | none => exact ⟨none, by simp [← h, setNotice, notice]⟩
  | some n =>
    have hs : s = s.setNotice i (some n) := by simp [← h, setNotice, notice]
    simp only
    split
    · split
      · exact ⟨none, rfl⟩
      · exact ⟨some n, hs⟩
    · split
      · exact ⟨some n, hs⟩
      · split
        · exact ⟨_, rfl⟩
        · exact ⟨some n, hs⟩

theorem returnNotices_points (s : State) (i : SlotNo) : SameButPoints s (s.returnNotices i) ∧
    ∀ j, (s.returnNotices i).slot j = s.slot j := by
  have key : ∀ r : State × Bool, (SameButPoints s r.1 ∧ ∀ j, r.1.slot j = s.slot j) →
      ∀ u, u = (if r.2 = true then r.1 else if (s.slot i).cfg.notifyClear then r.1.raise i .cleared .normal else r.1) →
      SameButPoints s u ∧ ∀ j, u.slot j = s.slot j := by
    rintro r ⟨h1, h2⟩ u rfl
    split
    · exact ⟨h1, h2⟩
    · split
      · exact ⟨h1.trans (raise_points _ _ _ _), fun j => by rw [raise_slot]; exact h2 j⟩
      · exact ⟨h1, h2⟩
  refine key (if (s.slot i).cfg.policy = .follow then s.followWithdraw i else (s, false)) ?_ _ rfl
  split
  · obtain ⟨n, h⟩ := followWithdraw_frame s i
    rw [h]
    exact ⟨SameButPoints.refl s, fun _ => rfl⟩
  · exact ⟨SameButPoints.refl s, fun _ => rfl⟩

/-- A change of condition to NORMAL writes the condition, the point's notice, the raise sequence counter and the linked
action's channel, and nothing else (R102, R103). -/
theorem returnToNormal_points (s : State) (i : SlotNo) : SameButPoints s (s.returnToNormal i) ∧
    ∀ j, (s.returnToNormal i).slot j = s.slot j := by
  obtain ⟨h1, h2⟩ := returnNotices_points s i
  simp only [returnToNormal]
  split
  · exact ⟨h1, h2⟩
  · refine ⟨h1.trans (offerRestore_points _ _ _), fun j => ?_⟩
    obtain ⟨r, h⟩ := offerRestore_frame (s.returnNotices i) _ i
    rw [h]
    exact h2 j

/-- An entry into an abnormal condition writes no part that the evaluator never writes, and of a point record the link
alone (R100, R146). -/
theorem enterCondition_points (s : State) (i : SlotNo) (x : Condition) : SameButPoints s (s.enterCondition i x) ∧
    ∀ j, ∃ l, (s.enterCondition i x).slot j = { s.slot j with link := l } := by
  have h1 : SameButPoints s (s.invokeOnEntry i x).1 ∧
      ∀ j, ∃ l, (s.invokeOnEntry i x).1.slot j = { s.slot j with link := l } := by
    simp only [invokeOnEntry]
    cases (s.slot i).link with
    | none => exact ⟨SameButPoints.refl s, fun j => ⟨(s.slot j).link, rfl⟩⟩
    | some a =>
      simp only
      split
      · exact ⟨invoke_points s a i, invoke_slot s a i⟩
      · exact ⟨SameButPoints.refl s, fun j => ⟨(s.slot j).link, rfl⟩⟩
  have h2 : ∀ (u : State) (o : InvokeOutcome) (c : Option Cause), SameButPoints u (u.entryRaises i x o c) ∧
      ∀ j, (u.entryRaises i x o c).slot j = u.slot j := by
    intro u o c
    simp only [entryRaises]
    cases c with
    | none =>
      simp only
      split
      · exact ⟨SameButPoints.refl u, fun _ => rfl⟩
      · exact ⟨raise_points _ _ _ _, fun j => raise_slot _ _ _ _ _⟩
    | some cause =>
      simp only
      split
      · exact ⟨raise_points _ _ _ _, fun j => raise_slot _ _ _ _ _⟩
      · exact ⟨(raise_points _ _ _ _).trans (raise_points _ _ _ _), fun j => by simp⟩
  simp only [enterCondition]
  obtain ⟨h3, h4⟩ := h2 (s.invokeOnEntry i x).1 (s.invokeOnEntry i x).2.1 (s.invokeOnEntry i x).2.2
  exact ⟨h1.1.trans h3, fun j => by rw [h4]; exact h1.2 j⟩

/-- What a condition change leaves of the point records: the point's condition is the new one, and beside it only links
to a spent action go (R98, R146). -/
theorem changeCondition_points (s : State) (i : SlotNo) (x : Condition) : SameButPoints s (s.changeCondition i x) ∧
    ∀ j, ∃ l, (s.changeCondition i x).slot j =
      { (if j = i then { s.slot i with condition := x } else s.slot j) with link := l } := by
  have h0 : ∀ j, (s.setSlot i { s.slot i with condition := x }).slot j =
      if j = i then { s.slot i with condition := x } else s.slot j := by
    intro j
    rw [slot_setSlot]
    by_cases h : i = j
    · simp [h]
    · simp [h, Ne.symm h]
  have e : ∀ y, SameButPoints s ((s.setSlot i { s.slot i with condition := x }).enterCondition i y) ∧
      ∀ j, ∃ l, ((s.setSlot i { s.slot i with condition := x }).enterCondition i y).slot j =
        { (if j = i then { s.slot i with condition := x } else s.slot j) with link := l } := by
    intro y
    obtain ⟨h1, h2⟩ := enterCondition_points (s.setSlot i { s.slot i with condition := x }) i y
    exact ⟨h1, fun j => by rw [← h0]; exact h2 j⟩
  cases x with
  | normal =>
    obtain ⟨h1, h2⟩ := returnToNormal_points (s.setSlot i { s.slot i with condition := .normal }) i
    exact ⟨h1, fun j => ⟨(if j = i then { s.slot i with condition := .normal } else s.slot j).link, (h2 j).trans (h0 j)⟩⟩
  | lo => exact e _
  | lolo => exact e _
  | hi => exact e _
  | hihi => exact e _

end State
end Sys2Proof.Machine
end

