-- ==== Sys2Proof/Laws/Sessions.lean ====
section
/-! SUPPORT. What the end of a session leaves, said once: the state of every block before the other port's wait is
served. -/

namespace Sys2Proof.Machine

theorem discardFor_port (p : Port) (c : Converter) : c.discardFor (fun j => j.port == p) =
    match c with
    | .settling (.direct j ch g) due =>
      .settling (.direct (if j.port = p then { j with disposition := .discard } else j) ch g) due
    | .sampling (.direct j ch g) due =>
      .sampling (.direct (if j.port = p then { j with disposition := .discard } else j) ch g) due
    | .settling (.scan _ _) _ | .sampling (.scan _ _) _ | .idle => c := by
  cases c with
  | idle => rfl
  | settling j due =>
    cases j with
    | scan c j => rfl
    | direct j ch g =>
      simp only [Converter.discardFor, HeldJob.discardFor, beq_iff_eq]
      split <;> rfl
  | sampling j due =>
    cases j with
    | scan c j => rfl
    | direct j ch g =>
      simp only [Converter.discardFor, HeldJob.discardFor, beq_iff_eq]
      split <;> rfl

theorem returnFrom_eq (p : Port) (n : Notice) : n.returnFrom p =
    if n.state = .delivered p then
      match n.followOn with
      | none => { n with state := .pending }
      | some f => { n with
          state := .pending, followOn := none, cause := f.cause, condition := f.condition
          severity := max n.severity f.severity, count := min 255 (n.count + 1) }
    else n := by
  simp only [Notice.returnFrom]
  split
  · cases n.followOn <;> rfl
  · rfl

namespace State

@[simp] theorem afterSessionEnd_waits (s : State) (p : Port) :
    (s.afterSessionEnd p).waits = s.waits.filter fun w => w.port != p := by
  cases p <;> rfl

end State
end Sys2Proof.Machine
end

