-- ==== Sys2Proof/Tests/Slice0.lean ====
section
/-! SUPPORT. Tests of the model: the checks of `WellFormed`, the bytes of frames and answers, one step of each command
against figures of the manual, and for each statement with hypotheses a state and operands that meet them. -/

namespace Sys2Proof.Tests

open Sys2Proof.Machine

set_option Elab.async false

/-! ## Small states -/

/-- The state a command leaves. -/
def next (i : Instr) (s : State) : State :=
  match exec i s with
  | .next t => t
  | .fault _ => s
  | .refused _ => s

/-- The last answer of a port's queue: its tag, result and data. -/
def lastAnswer (s : State) (p : Port) : Option (Tag × ResultCode × List Byte) :=
  (s.port p).queue.getLast?.map fun a => (a.tag, a.code, a.data)

/-- A port with a session and nothing else. -/
def attachedPort : PortRec := { PortRec.reset with session := .attached }

/-- The part with both ports attached. -/
def up : State := { State.reset with portH := attachedPort, portL := attachedPort }

/-- The configuration of the worked example of section 5.8, with confirm 1 and notify quality yes. -/
def alarmCfg : PointConfig :=
  { PointConfig.reset with
    lo := some 100, hi := some 800, hihi := some 900, deadband := 30, confirm := 1, staleInterval := some 10
    severity := 3, notifyClear := true, notifyQuality := true }

/-- A state with one more point. -/
def withPoint (s : State) (i : SlotNo) (g : Generation) (key : Word32) (cfg : PointConfig) : State :=
  (s.setSlot i (PointSlot.fresh g key cfg)).setKeyMap ({ key := key, slot := i } :: s.keyMap)

/-- Point 0/1, key 501. -/
def one : State := withPoint up 0 1 501 alarmCfg

/-- Point 127/255, the last slot and generation, with the last key. -/
def last : State := withPoint up 127 255 0xFFFFFFFF alarmCfg

/-- Point 0/1 listed as the one entry of a class with this record beside its list. -/
def listed (k : ScanClass) : State := one.setCls 3 { k with list := [{ slot := 0, gen := 1 }] }

/-- The job of point 0/1. -/
def jobOne : ScanJob := { slot := 0, gen := 1, channel := 0, gain := .g1 }

/-- Class 3 RUNNING with the job of point 0/1 converting, in the last microsecond of SAMPLING. -/
def converting : State :=
  (listed { ScanClass.reset with
    state := .running, job := some { job := jobOne, phase := .converting } }).setFrontEnd {
      converter := .sampling (.scan 3 jobOne) 5, openSel := some { channel := 0, gain := .g1 }, queue := [] }

/-- A pending notice of point 0/1. -/
def pendingNotice : Notice := Notice.fresh 1 .entered .hi 7 1

/-- Action 0, armed for HI and HIHI on output 1 as in the worked example of section 7.6. -/
def armedAction : ActionRec :=
  { ActionRec.reset with
    state := .armed, triggers := { lo := false, lolo := false, hi := true, hihi := true }, output := 1, drive := 4000
    budget := 5, restore := true }

/-- A claim of port H on point 0/1. -/
def claimed (p : Port) : State :=
  one.setSlot 0 { one.slot 0 with claim := some { owner := p, staged := alarmCfg, due := 500000 } }

/-- The part with action 0 armed and linked to point 0/1. -/
def linked : State :=
  (one.setSlot 0 { one.slot 0 with link := some 0 }).setAction 0 { armedAction with linkCount := 1 }

/-- A waiting tag. -/
def waitingTag (t : Tag) (kind : Byte) : OpenTag := { tag := t, kind := kind, place := .waiting }

/-- A direct job of port H with tag 5 on channel 3 at G4. -/
def directJob : DirectJob := { port := .H, tag := 5, target := .convert 3 .g4, disposition := .answer }

/-- Port H with an open waiting tag 5 of a kind. -/
def waitingFor (s : State) (kind : Byte) : State := s.setPort .H { attachedPort with openTags := [waitingTag 5 kind] }

/-! ## The checks of `WellFormed` -/

theorem test_wellFormed_refuses_submit_as_bad_byte : WellFormed (.badCommandByte .H 0x5A) = false := by decide
theorem test_wellFormed_refuses_collect_as_bad_byte : WellFormed (.badCommandByte .L 0xC3) = false := by decide
theorem test_wellFormed_refuses_a_good_frame_as_discarded :
    WellFormed (.frameDiscard .H [0x08, 0x02, 0x11, 0x00, 0x00, 0x01, 0xF5, 0xEF]) = false := by decide
theorem test_wellFormed_refuses_a_request_as_bad : WellFormed (.badRequestFrame .H 2 0x05 []) = false := by decide
theorem test_wellFormed_refuses_a_bad_request_too_long :
    WellFormed (.badRequestFrame .H 2 0x00 (List.replicate 61 0)) = false := by decide
theorem test_wellFormed_refuses_a_refusal_too_long :
    WellFormed (.requestRefusal .H 2 0x05 (List.replicate 61 0)) = false := by decide
theorem test_wellFormed_takes_a_bad_byte : WellFormed (.badCommandByte .H 0x00) = true := by decide

/-! ## Frames (section 10.5, R185, R187) -/

theorem test_frame_find : decodeSubmit .H [0x08, 0x02, 0x11, 0x00, 0x00, 0x01, 0xF5, 0xEF] = .pointFind .H 2 501 := by decide
theorem test_frame_detach : decodeSubmit .L [0x04, 0x0F, 0x05, 0xE8] = .portDetach .L 15 := by decide
theorem test_frame_insert :
    decodeSubmit .L [0x08, 0x00, 0x38, 0x03, 0x7F, 0x01, 0x30, 0x0D] = .listInsert .L 0 3 127 1 48 := by decide
theorem test_frame_write : decodeSubmit .H [0x07, 0x01, 0x70, 0x02, 0x0F, 0xFF, 0x78] = .outputWrite .H 1 2 4095 := by
  decide
theorem test_frame_with_a_bad_sum :
    decodeSubmit .H [0x04, 0x0F, 0x05, 0xE7] = .frameDiscard .H [0x04, 0x0F, 0x05, 0xE7] := by decide
theorem test_frame_of_no_kind : decodeSubmit .H [0x04, 0x0F, 0x06, 0xE7] = .badRequestFrame .H 15 0x06 [] := by decide
theorem test_answer_find : responseFrame false { tag := 2, kind := 0x11, code := .ok, data := [0, 1] } =
    [0x07, 0x02, 0x11, 0x00, 0x00, 0x01, 0xE5] := by decide
theorem test_answer_refused : responseFrame true { tag := 2, kind := 0x11, code := .busy, data := [] } =
    [0x05, 0x02, 0x11, 0x82, 0x66] := by decide
theorem test_table_spells_nothing : decodeTableWord 8 0x5A = none := by decide

/-! ## Values, limits and candidates (the tables of R6, R9, R93 and R95) -/

theorem test_scale : scaleValue (some { offset := -5000, span := 20000 }) 8192 = 5000 := by decide
theorem test_scale_rounds_down : scaleValue (some { offset := -5000, span := -20000 }) 1 = -5002 := by decide
theorem test_scale_saturates : scaleValue (some { offset := 2147483000, span := 100000 }) 16383 = 2147483647 := by decide
theorem test_limits_pass : limitCheck { alarmCfg with deadband := 99 } = true := by decide
theorem test_limits_deadband : limitCheck { alarmCfg with deadband := 100 } = false := by decide
theorem test_limits_far_apart :
    limitCheck { PointConfig.reset with lolo := some (-2147483648), hihi := some 2147483647, deadband := 65535 } = true := by
  decide
theorem test_raw_candidate_at_the_limit : rawCandidate alarmCfg 800 = .hi := by decide
theorem test_candidate_within_the_deadband : candidate alarmCfg .hihi 880 = .hihi := by decide
theorem test_candidate_below_the_deadband : candidate alarmCfg .hihi 860 = .hi := by decide
theorem test_candidate_never_leaves :
    candidate { PointConfig.reset with hi := some (-2147483600), deadband := 100 } .hi (-2147483648) = .hi := by decide

/-! ## One step of each command -/

theorem test_powerUp : (next (.powerUp false true false) one).portH.prstAsserted = true := by decide +kernel
theorem test_deviceReset : ((next .deviceReset one).slot 0).state = .free := by decide +kernel
theorem test_rstnRelease : (next (.rstnRelease true false) { up with rstAsserted := true }).portH.selectIgnored = true := by
  decide +kernel
theorem test_prstnAssert : (next (.prstnAssert .H) (claimed .H)).slot 0 = one.slot 0 := by decide +kernel
theorem test_prstnRelease : (next (.prstnRelease .H false) (next (.prstnAssert .H) up)).portH.prstAsserted = false := by
  decide +kernel
theorem test_badCommandByte : (next (.badCommandByte .H 0x00) up).portH.frameErrors = 1 := by decide +kernel
theorem test_badCommandByte_saturates : (next (.badCommandByte .H 0xFF)
    (up.setPort .H { attachedPort with frameErrors := 255 })).portH.frameErrors = 255 := by decide +kernel
theorem test_frameDiscard : (next (.frameDiscard .H [0x04, 0x0F, 0x05]) up).portH.frameErrors = 1 := by decide +kernel
theorem test_frameDiscard_of_a_frame :
    lastAnswer (next (.frameDiscard .H [0x08, 0x02, 0x11, 0x00, 0x00, 0x01, 0xF5, 0xEF]) one) .H = some (2, .ok, [0, 1]) := by
  decide +kernel
theorem test_badRequestFrame : lastAnswer (next (.badRequestFrame .H 1 0x06 []) State.reset) .H = some (1, .badRequest, []) := by
  decide +kernel
theorem test_collect : (next (.collect .H ⟨9, false⟩) (next (.pointFind .H 2 501) one)).portH.clockedOut =
    [0x07, 0x02, 0x11, 0x00, 0x00, 0x01, 0xE5, 0x00, 0x00] := by decide +kernel
theorem test_collect_cut_short : (next (.collect .H ⟨6, false⟩) (next (.pointFind .H 2 501) one)).portH.openTags.length = 1 := by
  decide +kernel
/-- A COLLECT of the empty indication, with a stale expiry between its first byte and the summary's second. -/
def interleaved : State :=
  next (.collect .H ⟨1, false⟩) (next (.staleExpiry 0) (next (.collect .H ⟨2, true⟩)
    (one.setSlot 0 { one.slot 0 with staleTimer := some 9 })))

/-- The same with the expiry before the empty indication's byte has been clocked. -/
def earlier : State :=
  next (.collect .H ⟨3, false⟩) (next (.staleExpiry 0) (next (.collect .H ⟨0, true⟩)
    (one.setSlot 0 { one.slot 0 with staleTimer := some 9 })))

theorem test_collect_summary_taken_with_the_last_byte : interleaved.portH.clockedOut = [0, 0, 0] := by decide +kernel
theorem test_collect_summary_sees_what_came_before : earlier.portH.clockedOut = [0, 1, 0] := by decide +kernel
theorem test_collect_ended_by_a_submit : (next (.portCancel .H 0 9) (next (.collect .H ⟨6, true⟩)
    (next (.pointFind .H 2 501) one))).portH.queue.length = 2 := by decide +kernel
theorem test_reading_of_a_gain : Gain.g4.reading (64 * 1000) = 4000 ∧ Gain.g4.reading (64 * 4096) = 16383 := by decide
theorem test_portAttach : (next (.portAttach .H 0 0 0xFF) State.reset).portH.timeoutSteps = 50 := by decide +kernel
theorem test_portSet : (next (.portSet .H 0 255 7) up).portH.threshold = 7 := by decide +kernel
theorem test_portStatus : lastAnswer (next (.portStatus .H 0 0) up) .H = some (0, .ok, [1, 50, 0, 1, 0, 0, 0, 0]) := by
  decide +kernel
theorem test_portCancel :
    (next (.portCancel .H 0 5) ((waitingFor up 0x51).setWaits [{ port := .H, tag := 5, due := 9 }])).portH.queue.map
      (fun a => (a.tag, a.code)) = [(5, .cancelled), (0, .ok)] := by decide +kernel
theorem test_portDetach : ((next (.portDetach .H 9) (claimed .H)).slot 0).claim = none := by decide +kernel
theorem test_portDetach_fallback : (next (.portDetach .H 9) (up.setOutput 3
    { OutputChannel.reset with value := 1500, pin := some .H, fallback := some 0 })).output 3 =
      { OutputChannel.reset with value := 0, lastWriter := .fallback, fallback := some 0 } := by decide +kernel
theorem test_pointDefine : lastAnswer (next (.pointDefine .H 0 {
    key := 502, channel := 0, gain := 0, flags := 0, offset := 0, span := 0, lolo := 0, lo := 0, hi := 0, hihi := 0
    deadband := 0, confirm := 1, stale := 0, severity := 0, policy := 0, route := 0 }) one) .H = some (0, .ok, [1, 1]) := by
  decide +kernel
theorem test_pointFind : lastAnswer (next (.pointFind .H 0 502) one) .H = some (0, .notFound, []) := by decide +kernel
theorem test_pointRead : ((lastAnswer (next (.pointRead .H 0 0 1) one) .H).map fun a => a.2.2.take 6) =
    some [0, 1, 0, 0, 1, 0xF5] := by decide +kernel
theorem test_tableSummary : lastAnswer (next (.tableSummary .H 0 0) last) .H =
    some (0, .ok, [1, 1, 127, 255, 0xFF]) := by decide +kernel
theorem test_pointRetire : ((next (.pointRetire .H 0 0 1) (listed ScanClass.reset)).cls 3).list = [] := by decide +kernel
theorem test_pointRetire_generation : ((next (.pointRetire .H 0 127 255) last).slot 127).gen = 255 := by decide +kernel
theorem test_pointSample : (next (.pointSample .H 0 0 1) one).frontEnd.queue.length = 1 := by decide +kernel
theorem test_editOpen : (((next (.editOpen .L 0 0 1) one).slot 0).claim.map Claim.due) = some 500000 := by decide +kernel
theorem test_editOpen_of_the_other : lastAnswer (next (.editOpen .L 0 0 1) (claimed .H)) .L = some (0, .claimed, [1]) := by
  decide +kernel
theorem test_editSet : (((next (.editSet .H 0 0 1 7 1 0x000003B600000000) (claimed .H)).slot 0).claim.map
    fun c => c.staged.hihi) = some (some 950) := by decide +kernel
theorem test_editCommit : ((next (.editCommit .H 0 0 1) ((claimed .H).setSlot 0 { (claimed .H).slot 0 with
    condition := .hi, claim := some { owner := .H, due := 9, staged := { alarmCfg with hi := none } } })).slot 0).condition =
      .normal := by decide +kernel
theorem test_editDrop : ((next (.editDrop .H 0 0 1) (claimed .H)).slot 0).claim = none := by decide +kernel
theorem test_classConfig : ((next (.classConfig .H 0 3 0 50) up).cls 3).source = .periodic := by decide +kernel
theorem test_classStart : ((next (.classStart .H 0 3) (listed ScanClass.reset)).slot 0).staleTimer = some 10000 := by
  decide +kernel
theorem test_classStop : lastAnswer (next (.classStop .H 0 3) converting) .H = some (0, .ok, [3]) := by decide +kernel
theorem test_classTrigger : ((next (.classTrigger .H 0 3) (listed { ScanClass.reset with state := .waiting })).cls 3).job =
    some { job := jobOne, phase := .posted } := by decide +kernel
theorem test_classStatus : lastAnswer (next (.classStatus .H 0 0 0) up) .H =
    some (0, .ok, [3, 0x27, 0x10, 0, 0, 0, 0, 0, 0, 0, 0, 0, 0]) := by decide +kernel
theorem test_listInsert : ((next (.listInsert .H 0 3 127 255 0) (withPoint (listed { ScanClass.reset with
    state := .waiting, cursor := 1 }) 127 255 9 alarmCfg)).cls 3).cursor = 2 := by decide +kernel
theorem test_listRemove : ((next (.listRemove .H 0 3 0 1) converting).cls 3).removedMark = true := by decide +kernel
theorem test_listRead : lastAnswer (next (.listRead .H 0 3) converting) .H = some (0, .ok, [1, 0, 1]) := by decide +kernel
theorem test_convertDirect : lastAnswer (next (.convertDirect .H 0 24 0) up) .H = some (0, .badArgument, []) := by
  decide +kernel
theorem test_noticeFetch : lastAnswer (next (.noticeFetch .H 0) (one.setNotice 0 (some pendingNotice))) .H =
    some (0, .ok, [0, 1, 0, 3, 7, 0, 0, 0, 1, 1]) := by decide +kernel
theorem test_noticeWait : (next (.noticeWait .H 0 5000) up).waits = [{ port := .H, tag := 0, due := 5000000 }] := by
  decide +kernel
theorem test_noticeAck : (next (.noticeAck .H 0 0 1) (one.setNotice 0 (some { pendingNotice with
    state := .delivered .H, followOn := some { cause := .cleared, condition := .normal, severity := 3 } }))).notice 0 =
      some (Notice.fresh 1 .cleared .normal 3 1) := by decide +kernel
theorem test_actionCreate : (next (.actionCreate .H 0 0x0C 1 4000 5 4) up).action 0 = armedAction := by decide +kernel
theorem test_actionLink : lastAnswer (next (.actionLink .H 0 0 0 1) (one.setAction 0 armedAction)) .H =
    some (0, .ok, [0, 1]) := by decide +kernel
theorem test_actionUnlink : ((next (.actionUnlink .H 0 0 1) linked).action 0).linkCount = 0 := by decide +kernel
theorem test_actionRearm : ((next (.actionRearm .H 0 0 255) linked).action 0).budget = 255 := by decide +kernel
theorem test_actionFree : lastAnswer (next (.actionFree .H 0 0) linked) .H = some (0, .inUse, []) := by decide +kernel
theorem test_actionRead : lastAnswer (next (.actionRead .H 0 0) linked) .H =
    some (0, .ok, [1, 0x0C, 1, 0x0F, 0xA0, 5, 4, 1]) := by decide +kernel
theorem test_outputWrite : (next (.outputWrite .L 0 1 1200) up).aout 1 = 1200 := by decide +kernel
theorem test_outputPin : lastAnswer (next (.outputPin .H 0 0) (up.setOutput 0 { OutputChannel.reset with
    value := 3800, lastWriter := .action 6 11 })) .H = some (0, .ok, [0x0E, 0xD8, 3, 6, 11]) := by decide +kernel
theorem test_outputUnpin : lastAnswer (next (.outputUnpin .H 0 0) up) .H = some (0, .notPinned, []) := by decide +kernel
theorem test_outputFallback : ((next (.outputFallback .H 0 0 1 500) up).output 0).fallback = some 500 := by decide +kernel
theorem test_outputRead : lastAnswer (next (.outputRead .H 0 0) up) .H =
    some (0, .ok, [0, 0, 0, 0, 0, 0, 0, 0, 0, 0, 0, 0]) := by decide +kernel
theorem test_periodExpiry : ((next (.periodExpiry 3) (listed { ScanClass.reset with
    source := .periodic, state := .running, period := 50, periodTimer := some 5000 })).cls 3).overruns = 1 := by decide +kernel
theorem test_xtRisingEdge : ((next (.xtRisingEdge .xt1) (up.setCls 0 { ScanClass.reset with
    source := .ext1, state := .waiting, passSeq := 65535 })).cls 0).passSeq = 0 := by decide +kernel
theorem test_grant : (next .grant (up.setFrontEnd { converter := .idle, openSel := none, queue := [directJob] })).frontEnd =
    { converter := .settling (.direct directJob 3 .g4) 22, openSel := some { channel := 3, gain := .g4 }, queue := [] } := by
  decide +kernel
theorem test_settlingElapsed : (next .settlingElapsed (up.setFrontEnd {
    converter := .settling (.direct directJob 3 .g4) 22, openSel := none, queue := [] })).frontEnd.converter =
      .sampling (.direct directJob 3 .g4) 27 := by decide +kernel
theorem test_conversionComplete : ((next (.conversionComplete (64 * 850)) converting).slot 0).condition = .hi := by decide +kernel
theorem test_conversionComplete_clipped : (next (.conversionComplete (64 * 16383)) converting).frontEnd.openSel = none := by
  decide +kernel
theorem test_claimLapse : ((next (.claimLapse 0) (claimed .H)).slot 0).claim = none := by decide +kernel
theorem test_staleExpiry : (((next (.staleExpiry 0) (one.setSlot 0 { one.slot 0 with
    staleTimer := some 9 })).notice 0).map Notice.cause) = some .stale := by decide +kernel
theorem test_waitTimeout : lastAnswer (next (.waitTimeout .H) ((waitingFor up 0x51).setWaits
    [{ port := .H, tag := 5, due := 9 }])) .H = some (5, .none, []) := by decide +kernel
theorem test_requestRefusal : (next (.requestRefusal .H 5 0x11 []) (waitingFor up 0x51)).portH.refusals =
    [{ tag := 5, kind := 0x11, code := .tagInUse, data := [] }] := by decide +kernel


/-! ## Witnesses: for each statement with hypotheses, a state and operands that meet them, clause by clause -/

theorem waitingLaw_of {s : State}
    (h : (∀ j ∈ s.frontEnd.queue, j.disposition = .answer) ∧ s.waitingRequests.Nodup ∧
      (∀ t, (Port.H, t) ∈ s.waitingRequests ↔ ∃ e ∈ s.portH.openTags, e.tag = t ∧ e.place = .waiting) ∧
      (∀ t, (Port.L, t) ∈ s.waitingRequests ↔ ∃ e ∈ s.portL.openTags, e.tag = t ∧ e.place = .waiting) ∧
      (∀ x ∈ s.waitingRequests, s.attached x.1 = true) ∧ (s.waits.map WaitRec.port).Nodup) : WaitingLaw s := by
  obtain ⟨hq, hn, hH, hL, ha, hw⟩ := h
  refine ⟨hq, hn, ?_, ha, hw⟩
  intro p
  cases p
  · exact hH
  · exact hL

/-- The scheduler's law where class 3 lists one point at most and every other class is as after reset. -/
theorem schedulerLaw_of {s : State} (others : ∀ c, c ≠ 3 → s.cls c = ScanClass.reset) (short : (s.cls 3).list.length ≤ 1)
    (named : ∀ e ∈ (s.cls 3).list, s.names e.slot e.gen = true) (legal : (s.cls 3).Legal)
    (job : ∀ j, (s.cls 3).job = some { job := j, phase := .converting } ↔ s.frontEnd.converter.held = some (.scan 3 j))
    (held : ∀ c j, s.frontEnd.converter.held = some (.scan c j) → c = 3) : SchedulerLaw s := by
  have empty : ∀ c, c ≠ 3 → (s.cls c).list = [] := fun c h => by simp [others c h, ScanClass.reset]
  refine ⟨⟨fun c e he => ?_, fun c d k m e f hk hm _ => ?_⟩, fun c => ?_, fun c j => ?_⟩
  · by_cases hc : c = 3
    · subst hc; exact named e he
    · simp [empty c hc] at he
  · by_cases hc : c = 3
    · by_cases hd : d = 3
      · subst hc hd
        obtain ⟨h1, -⟩ := List.getElem?_eq_some_iff.mp hk
        obtain ⟨h2, -⟩ := List.getElem?_eq_some_iff.mp hm
        exact ⟨rfl, by omega⟩
      · simp [empty d hd] at hm
    · simp [empty c hc] at hk
  · by_cases hc : c = 3
    · subst hc; exact legal
    · rw [others c hc]; simp [ScanClass.Legal, ScanClass.reset]
  · by_cases hc : c = 3
    · subst hc; exact job j
    · rw [others c hc]
      constructor
      · intro h; simp [ScanClass.reset] at h
      · intro h; exact absurd (held c j h) hc

/-- Port H holds a reset line's level. -/
def prstHeld : State := up.setPort .H { PortRec.reset with prstAsserted := true }

/-- Port H with four open tags. -/
def fullPort : State := up.setPort .H { attachedPort with openTags := [waitingTag 1 0x51, waitingTag 2 0x15, waitingTag 3 0x40, waitingTag 4 0x40] }

/-- Port H with an answer and a refusal to collect. -/
def withTraffic : State := up.setPort .H { attachedPort with
  openTags := [{ tag := 2, kind := 0x11, place := .answered }]
  queue := [{ tag := 2, kind := 0x11, code := .ok, data := [0, 1] }]
  refusals := [{ tag := 2, kind := 0x11, code := .tagInUse, data := [] }] }

/-- An answer. -/
def heldAnswer : Answer := { tag := 2, kind := 0x11, code := .ok, data := [0, 1] }

/-- Port H waiting with tag 5 in NOTICE.WAIT. -/
def waitingH : State := (waitingFor one 0x51).setWaits [{ port := .H, tag := 5, due := 9 }]

/-- Port H waiting with tag 5 for the queued direct job. -/
def queuedH : State := (waitingFor one 0x40).setFrontEnd { converter := .idle, openSel := none, queue := [directJob] }

/-- Port H waiting with tag 5 for the direct job in the converter. -/
def heldH (phase : HeldJob → Nat → Converter) : State := (waitingFor one 0x40).setFrontEnd {
  converter := phase (.direct directJob 3 .g4) 22, openSel := none, queue := [] }

/-- A direct job of port H with tag 5 on point 0/1. -/
def sampleJob : DirectJob := { port := .H, tag := 5, target := .sample 0 1, disposition := .answer }

/-- Port H waiting with tag 5 for the sample of point 0/1 in the converter. -/
def sampleH : State := (waitingFor one 0x15).setFrontEnd {
  converter := .sampling (.direct sampleJob 0 .g1) 5, openSel := none, queue := [] }

/-- Every slot DEFINED. -/
def fullTable : State := up.withSlots fun i => PointSlot.fresh 1 (BitVec.ofNat 32 (i.val + 1)) alarmCfg

/-- Every slot but the last DEFINED. -/
def lastFree : State := fullTable.setSlot 127 (PointSlot.freed 255)

/-- Point 0/1 with port H's claim and a staged copy that fails the limit check. -/
def badStaged : State := one.setSlot 0 { one.slot 0 with
  claim := some { owner := .H, staged := { alarmCfg with deadband := 100 }, due := 9 } }

/-- A configuration block that passes every check, on channel 23 with no limits. -/
def plainBlock : ConfigBlock := {
  key := 1, channel := 23, gain := 3, flags := 0, offset := 0, span := 0, lolo := 0, lo := 0, hi := 0, hihi := 0
  deadband := 0, confirm := 8, stale := 0, severity := 7, policy := 1, route := 2 }

/-- The configuration of `plainBlock`. -/
def plainCfg : PointConfig := { PointConfig.reset with
  channel := 23, gain := .g64, confirm := 8, severity := 7, policy := .follow, route := .either }

/-- Point 0/1 with a PENDING notice. -/
def noticed : State := one.setNotice 0 (some pendingNotice)

/-- Point 0/1 with a notice DELIVERED to port H. -/
def delivered (f : Option FollowOn) : State := one.setNotice 0 (some { pendingNotice with state := .delivered .H, followOn := f })

/-- A follow-on of cause ENTERED. -/
def heldRaise : FollowOn := { cause := .entered, condition := .hi, severity := 3 }

/-- A full list of class 3. -/
def fullList : State := up.withSlots (fun i => PointSlot.fresh 1 (BitVec.ofNat 32 (i.val + 1)) alarmCfg) |>.setCls 3 {
  ScanClass.reset with list := List.ofFn fun i : Fin 48 => { slot := ⟨i.val, by omega⟩, gen := 1 } }

/-- Point 0/1 under the policy FOLLOW. -/
def follow (s : State) : State := s.setSlot 0 { s.slot 0 with cfg := { alarmCfg with policy := .follow } }

theorem quiet_up : WaitingLaw up := waitingLaw_of (by decide +kernel)

theorem scheduler_up : SchedulerLaw up :=
  schedulerLaw_of (by decide +kernel) (by decide +kernel) (by decide +kernel)
    (by rw [show up.cls 3 = ScanClass.reset from by decide +kernel]; simp [ScanClass.Legal, ScanClass.reset])
    (fun j => by simp [up, State.cls, State.reset, ScanClass.reset, Converter.held])
    (fun c j => by simp [up, State.reset, Converter.held])

/-- Class 3 RUNNING with the job of point 0/1 POSTED. -/
def postedClass : ScanClass := { ScanClass.reset with
  state := .running, source := .periodic, periodTimer := some 7, job := some { job := jobOne, phase := .posted }
  list := [{ slot := 0, gen := 1 }] }

/-- Point 0/1 listed in that class. -/
def posted : State := listed postedClass

theorem scheduler_posted : SchedulerLaw posted :=
  schedulerLaw_of (by decide +kernel) (by decide +kernel) (by decide +kernel)
    (by
      rw [show posted.cls 3 = postedClass from by decide +kernel]
      exact ⟨by decide, by decide, by decide, rfl, rfl⟩)
    (fun j => by
      rw [show (posted.cls 3).job = some { job := jobOne, phase := .posted } from by decide +kernel,
        show posted.frontEnd.converter = .idle from by decide +kernel]
      simp [Converter.held])
    (fun c j => by
      rw [show posted.frontEnd.converter = .idle from by decide +kernel]
      simp [Converter.held])

/-- Class 3 WAITING with the cursor of a completed pass, beyond the entry of point 0/1. -/
def waitingClass : ScanClass := { ScanClass.reset with state := .waiting, cursor := 1, list := [{ slot := 0, gen := 1 }] }

/-- Point 0/1 listed in that class. -/
def waitingBeyond : State := listed waitingClass

theorem scheduler_waitingBeyond : SchedulerLaw waitingBeyond :=
  schedulerLaw_of (by decide +kernel) (by decide +kernel) (by decide +kernel)
    (by
      rw [show waitingBeyond.cls 3 = waitingClass from by decide +kernel]
      exact ⟨by decide, by decide, by decide, rfl⟩)
    (fun j => by
      rw [show (waitingBeyond.cls 3).job = none from by decide +kernel,
        show waitingBeyond.frontEnd.converter = .idle from by decide +kernel]
      simp [Converter.held])
    (fun c j => by
      rw [show waitingBeyond.frontEnd.converter = .idle from by decide +kernel]
      simp [Converter.held])

theorem scheduler_converting : SchedulerLaw converting :=
  schedulerLaw_of (by decide +kernel) (by decide +kernel) (by decide +kernel)
    (by
      rw [show converting.cls 3 = { ScanClass.reset with
        state := .running, job := some { job := jobOne, phase := .converting }
        list := [{ slot := 0, gen := 1 }] } from by decide +kernel]
      exact ⟨by decide, by decide, by decide, Or.inr rfl⟩)
    (fun j => by
      rw [show (converting.cls 3).job = some { job := jobOne, phase := .converting } from by decide +kernel,
        show converting.frontEnd.converter = .sampling (.scan 3 jobOne) 5 from by decide +kernel]
      simp [Converter.held])
    (fun c j => by
      rw [show converting.frontEnd.converter = .sampling (.scan 3 jobOne) 5 from by decide +kernel]
      intro h; simp [Converter.held] at h; exact h.1.symm)

theorem witness_HeldLinesTakeNothing :
    ({ up with rstAsserted := true } : State).rstAsserted = true ∧ ({ up with rstAsserted := true } : State).pending = [] ∧
    (Instr.noticeFetch .H 0).carrier = some .H ∧ up.rstAsserted = false ∧ (prstHeld.port .H).prstAsserted = true ∧
    prstHeld.rstAsserted = false ∧ (up.port .H).prstAsserted = false ∧
    ((up.setPort .H { attachedPort with selectIgnored := true }).port .H).selectIgnored = true ∧
    ((up.setPort .H { attachedPort with collecting := some .ignored }).port .H).collecting = some .ignored := by decide +kernel

theorem witness_ResetLinesSetTheResetValues :
    ({ up with rstAsserted := true } : State).rstAsserted = true ∧ (prstHeld.port .H).prstAsserted = true ∧
    up.rstAsserted = false ∧ (up.port .H).prstAsserted = false := by decide +kernel

theorem witness_BadBytesOnlyCount : up.Takes .H ∧ (0x00 : Byte) ≠ 0x5A ∧ (0x00 : Byte) ≠ 0xC3 ∧
    (([3, 0, 5] : List Byte).headD 0).toNat < 4 ∧ 64 < (([65] : List Byte).headD 0).toNat ∧
    ([4, 15, 5] : List Byte).length < (([4, 15, 5] : List Byte).headD 0).toNat ∧
    ((([4, 15, 5, 0xE7] : List Byte).take 4).map BitVec.toNat).sum % 256 ≠ 0 ∧
    15 < (([4, 16, 5, 0xE7] : List Byte).getD 1 0).toNat := by
  unfold State.Takes; decide +kernel

theorem witness_RefusalsFillTheSlots : (waitingFor up 0x51).Takes .H ∧ fullPort.Takes .H ∧
    requestParts (.noticeFetch .H 5) = some (.H, 5, .noticeFetch, []) ∧
    (∃ e ∈ ((waitingFor up 0x51).port .H).openTags, e.tag = 5) ∧ 4 ≤ (fullPort.port .H).openTags.length := by
  unfold State.Takes; decide +kernel

theorem witness_PortAnswersBeforeTheOwner : State.reset.Admits .H 15 ∧
    (∀ k : Kind, k.code = 0x06 → ([] : List Byte).length ≠ k.argCount) ∧
    (∀ k : Kind, k.code = 0x05 → ([0] : List Byte).length ≠ k.argCount) ∧
    requestParts (.noticeFetch .H 15) = some (.H, 15, .noticeFetch, []) ∧ Kind.noticeFetch ≠ .portAttach ∧
    (State.reset.port .H).session = .detached := by
  refine ⟨?_, ?_, ?_, by decide, by decide, by decide +kernel⟩
  · unfold State.Admits State.Takes; decide +kernel
  all_goals intro k; cases k <;> decide

theorem witness_ReferencesAreChecked : one.Ready .H 0 ∧ (fieldEdit 1 1 ((23 : Byte) ++ (0 : BitVec 56))).isSome = true ∧
    (48 : Byte).toNat ≤ 48 ∧ 128 ≤ (128 : Byte).toNat ∧ (127 : Byte) = byte (127 : SlotNo).val ∧
    (one.slot 127).state = .free ∧ (0 : Byte) = byte (0 : SlotNo).val ∧ (one.slot 0).gen ≠ 2 := by
  unfold State.Ready State.Admits State.Takes; decide +kernel

theorem witness_CollectSendsAndRemoves : up.Takes .H ∧ (up.port .H).refusals = [] ∧ (up.port .H).queue = [] ∧
    withTraffic.Takes .H ∧ (withTraffic.port .H).refusals = { tag := 2, kind := 0x11, code := .tagInUse, data := [] } :: [] ∧
    (withTraffic.setPort .H { withTraffic.port .H with refusals := [] }).Takes .H ∧
    ((withTraffic.setPort .H { withTraffic.port .H with refusals := [] }).port .H).queue =
      { tag := 2, kind := 0x11, code := .ok, data := [0, 1] } :: [] ∧
    (∀ phase ∈ [CollectPhase.frame none [0], .frame (some (true, heldAnswer)) [0x66], .frame (some (false, heldAnswer)) [0xE5],
        .summary [0]],
      ((withTraffic.setPort .H { withTraffic.port .H with collecting := some phase }).port .H).collecting = some phase ∧
      ((withTraffic.setPort .H { withTraffic.port .H with collecting := some phase }).port .H).prstAsserted = false ∧
      ((withTraffic.setPort .H { withTraffic.port .H with collecting := some phase }).port .H).selectIgnored = false) ∧
    withTraffic.rstAsserted = false ∧ 0 < ([0xE5] : List Byte).length ∧ ([0xE5] : List Byte).length ≤ 1 ∧
    (Instr.noticeFetch .H 0).carrier = some .H := by
  unfold State.Takes; decide +kernel

theorem witness_ResponseFramesAreWhole : (List.replicate 97 (0xFF : Byte)).length ≤ 97 := by decide

theorem witness_AttachSetAndStatusOfThePort : State.reset.Admits .H 0 ∧ 8 ≤ (8 : Byte).toNat ∧ (8 : Byte) ≠ 0xFF ∧
    (7 : Byte).toNat < 8 ∧ (State.reset.port .H).session = .detached ∧ up.Admits .H 0 ∧ (up.port .H).session = .attached ∧
    up.Ready .H 0 ∧ WaitingLaw up ∧ 2 ≤ (2 : Byte).toNat ∧ (1 : Byte).toNat ≤ 1 :=
  ⟨by unfold State.Admits State.Takes; decide +kernel, by decide, by decide, by decide, by decide +kernel,
    by unfold State.Admits State.Takes; decide +kernel, by decide +kernel,
    by unfold State.Ready State.Admits State.Takes; decide +kernel, quiet_up, by decide, by decide⟩

theorem witness_CancelEndsTheWait :
    (16 ≤ (16 : Byte).toNat ∧ up.Ready .H 0 ∧ WaitingLaw up ∧ ∀ e ∈ (up.port .H).openTags, e.tag = 15 → e.place = .answered) ∧
    (waitingH.Ready .H 0 ∧ WaitingLaw waitingH ∧ waitingH.Waits .H 5 0x51 ∧ { port := .H, tag := 5, due := 9 } ∈ waitingH.waits) ∧
    (queuedH.Ready .H 0 ∧ WaitingLaw queuedH ∧ queuedH.Waits .H 5 0x40 ∧ directJob ∈ queuedH.frontEnd.queue) ∧
    ((heldH .settling).Ready .H 0 ∧ WaitingLaw (heldH .settling) ∧ (heldH .settling).Waits .H 5 0x40 ∧
      (heldH .settling).frontEnd.converter = .settling (.direct directJob 3 .g4) 22) ∧
    ((heldH .sampling).Ready .H 0 ∧ WaitingLaw (heldH .sampling) ∧ (heldH .sampling).Waits .H 5 0x40 ∧
      (heldH .sampling).frontEnd.converter = .sampling (.direct directJob 3 .g4) 22) ∧
    directJob.port = .H ∧ directJob.tag = 5 ∧ directJob.disposition = .answer := by
  refine ⟨⟨by decide, ?_, quiet_up, by decide +kernel⟩, ⟨?_, waitingLaw_of (by decide +kernel), ?_⟩,
    ⟨?_, waitingLaw_of (by decide +kernel), ?_⟩, ⟨?_, waitingLaw_of (by decide +kernel), ?_⟩,
    ⟨?_, waitingLaw_of (by decide +kernel), ?_⟩, by decide +kernel⟩
  all_goals try simp only [State.Ready, State.Admits, State.Takes, State.Waits]
  all_goals decide +kernel

theorem witness_SessionEndReachesEveryBlock : up.Ready .H 0 ∧ up.rstAsserted = false ∧ (up.port .H).prstAsserted = false ∧
    (up.port .H).session = .attached ∧ State.reset.rstAsserted = false ∧ (State.reset.port .H).prstAsserted = false ∧
    (State.reset.port .H).session = .detached := by
  unfold State.Ready State.Admits State.Takes; decide +kernel

theorem witness_LimitCheckIsOrderAndDeadband :
    (up.Ready .H 0 ∧ configOf { plainBlock with flags := 6, lolo := 5, lo := 5 } =
      some { plainCfg with lolo := some 5, lo := some 5 } ∧ plainBlock.key ≠ 0 ∧
      limitCheck { plainCfg with lolo := some 5, lo := some 5 } = false) ∧
    (badStaged.Ready .H 0 ∧ badStaged.names 0 1 = true ∧
      (badStaged.slot 0).claim = some { owner := .H, staged := { alarmCfg with deadband := 100 }, due := 9 } ∧
      limitCheck { alarmCfg with deadband := 100 } = false) := by
  unfold State.Ready State.Admits State.Takes; decide +kernel

theorem witness_BlocksCarryConfigurations : configOf { plainBlock with lolo := 7, stale := 9 } = some plainCfg ∧ alarmCfg.InRange ∧ plainCfg.InRange ∧
    ({ plainCfg with staleInterval := some 60000 }).InRange := by
  unfold PointConfig.InRange; decide +kernel

theorem witness_DefineTakesTheLowestFreeSlot : up.Ready .H 0 ∧ configOf { plainBlock with channel := 24 } = none ∧
    (configOf { plainBlock with flags := 6, lolo := 5, lo := 5 } =
      some { plainCfg with lolo := some 5, lo := some 5 } ∧
      limitCheck { plainCfg with lolo := some 5, lo := some 5 } = false) ∧
    ({ plainBlock with key := 0 } : ConfigBlock).key = 0 ∧ configOf plainBlock = some plainCfg ∧ plainBlock.key ≠ 0 ∧
    limitCheck plainCfg = true ∧ (one.Ready .H 0 ∧ ∃ e ∈ one.keyMap, e.key = 501) ∧
    (fullTable.Ready .H 0 ∧ (∀ e ∈ fullTable.keyMap, e.key ≠ 1) ∧ ∀ i, (fullTable.slot i).state = .defined) ∧
    (lastFree.Ready .H 0 ∧ (∀ e ∈ lastFree.keyMap, e.key ≠ 1) ∧ (lastFree.slot 127).state = .free ∧
      ∀ j < 127, (lastFree.slot j).state = .defined) := by
  unfold State.Ready State.Admits State.Takes; decide +kernel

theorem keyLaw_one : KeyLaw one := by unfold KeyLaw; decide +kernel

theorem listLaw_posted : ListLaw posted := scheduler_posted.1

theorem witness_LookupsOnlyAnswer : one.Ready .H 0 ∧ (502 : Word32) ≠ 0 ∧ (∀ e ∈ one.keyMap, e.key ≠ 502) ∧ KeyLaw one ∧
    (one.slot 0).state = .defined ∧ (one.names 0 1 = true ∧ ∀ c, ∀ e ∈ (one.cls c).list, e ≠ { slot := 0, gen := 1 }) ∧
    (posted.names 0 1 = true ∧ ListLaw posted ∧ (posted.cls 3).list[0]? = some { slot := 0, gen := 1 }) ∧
    128 ≤ (128 : Byte).toNat ∧ ([0] : List SlotNo).Pairwise (· < ·) ∧
    (∀ i : SlotNo, i ∈ ([0] : List SlotNo) ↔ (one.slot i).state = .defined) ∧
    (allSlots.Pairwise (· < ·) ∧ ∀ i : SlotNo, i ∈ allSlots ↔ (fullTable.slot i).state = .defined) :=
  ⟨by unfold State.Ready State.Admits State.Takes; decide +kernel, by decide, by decide +kernel, keyLaw_one,
    by decide +kernel, by decide +kernel, ⟨by decide +kernel, listLaw_posted, by decide +kernel⟩, by decide, by decide,
    by decide +kernel, by decide +kernel⟩

theorem witness_RetireClearsEveryReference : ((claimed .L).Ready .H 0 ∧ (claimed .L).names 0 1 = true ∧
      ((claimed .L).slot 0).claim.map Claim.owner = some Port.H.other) ∧
    (posted.Ready .H 0 ∧ posted.names 0 1 = true ∧ (posted.slot 0).claim.map Claim.owner ≠ some Port.H.other ∧
      SchedulerLaw posted) ∧
    ((posted.cls 3).list = [] ++ { slot := 0, gen := 1 } :: [] ∧ (posted.cls 3).cursor = ([] : List ListEntry).length ∧
      (posted.cls 3).job = some { job := jobOne, phase := .posted } ∧ ∀ e ∈ (posted.cls 0).list, e.slot ≠ 0) ∧
    (SchedulerLaw waitingBeyond ∧ (waitingBeyond.cls 3).list = [] ++ { slot := 0, gen := 1 } :: [] ∧
      ([] : List ListEntry).length < (waitingBeyond.cls 3).cursor) ∧
    (SchedulerLaw converting ∧ (converting.cls 3).list = [] ++ { slot := 0, gen := 1 } :: [] ∧
      (converting.cls 3).job = some { job := jobOne, phase := .converting }) := by
  refine ⟨?_, ⟨?_, ?_, ?_, scheduler_posted⟩, ?_, ⟨scheduler_waitingBeyond, ?_⟩, scheduler_converting, ?_⟩
  all_goals try simp only [State.Ready, State.Admits, State.Takes]
  all_goals decide +kernel

theorem witness_ClaimsOpenDropAndLapse : (one.Ready .H 0 ∧ one.names 0 1 = true ∧ (one.slot 0).claim = none) ∧
    ((claimed .H).Ready .H 0 ∧ (claimed .H).Ready .L 0 ∧ (claimed .H).names 0 1 = true ∧ (claimed .H).rstAsserted = false ∧
      ((claimed .H).slot 0).claim = some { owner := .H, staged := alarmCfg, due := 500000 } ∧ Port.H ≠ .L) := by
  unfold State.Ready State.Admits State.Takes; decide +kernel

theorem witness_SetStagesTheNamedField : (claimed .H).Ready .H 0 ∧ (claimed .H).names 0 1 = true ∧
    ((claimed .H).slot 0).claim = some { owner := .H, staged := alarmCfg, due := 500000 } ∧
    1 ≤ (1 : Byte).toNat ∧ (8 : Byte).toNat ≤ 8 ∧ 10 ≤ (10 : Word16).toNat ∧ (60000 : Word16).toNat ≤ 60000 := by
  unfold State.Ready State.Admits State.Takes; decide +kernel

/-- A value area whose first byte is `b`. -/
def area (b : Byte) : BitVec 64 := b ++ (0 : BitVec 56)

theorem witness_EditsNeedARangeAndAClaim : one.Ready .H 0 ∧ 15 < (16 : Byte).toNat ∧ 1 < (2 : Byte).toNat ∧
    (2 : Byte).toNat ≤ 2 ∧ 8 ≤ (8 : Byte).toNat ∧ (8 : Byte) ≠ 10 ∧ 23 < ((area 24).extractLsb' 56 8).toNat ∧
    3 < ((area 4).extractLsb' 56 8).toNat ∧ 8 < ((area 9).extractLsb' 56 8).toNat ∧
    (((9 : Word16) ++ (0 : BitVec 48)).extractLsb' 48 16).toNat < 10 ∧
    60000 < (((60001 : Word16) ++ (0 : BitVec 48)).extractLsb' 48 16).toNat ∧ 7 < ((area 8).extractLsb' 56 8).toNat ∧
    1 < ((area 2).extractLsb' 56 8).toNat ∧ 2 < ((area 3).extractLsb' 56 8).toNat ∧
    fieldEdit 0 1 0 = none ∧ fieldEdit 16 1 0 = none ∧ fieldEdit 4 2 0 = none ∧ fieldEdit 8 0 0 = none ∧
    fieldEdit 1 1 (area 24) = none ∧ (fieldEdit 1 1 (area 23)).isSome = true ∧ (fieldEdit 10 0 (area 24)).isSome = true ∧
    one.names 0 1 = true ∧ (one.slot 0).claim.map Claim.owner ≠ some .H ∧
    ((claimed .L).Ready .H 0 ∧ (claimed .L).names 0 1 = true ∧ ((claimed .L).slot 0).claim.map Claim.owner ≠ some .H) := by
  unfold State.Ready State.Admits State.Takes; decide +kernel

/-- Port H's claim on point 0/1 in HI, with a staged copy that has no HI limit. -/
def limitRemoved : State := one.setSlot 0 { one.slot 0 with
  condition := .hi, claim := some { owner := .H, due := 9, staged := { alarmCfg with hi := none } } }

theorem witness_CommitWritesTheStagedCopy : (claimed .H).Ready .H 0 ∧ (claimed .H).names 0 1 = true ∧
    ((claimed .H).slot 0).claim = some { owner := .H, staged := alarmCfg, due := 500000 } ∧ limitCheck alarmCfg = true ∧
    WaitingLaw (claimed .H) ∧ ((claimed .H).slot 0).condition = .normal ∧ (claimed .H).waits = [] ∧
    (limitRemoved.Ready .H 0 ∧ (limitRemoved.slot 0).claim = some { owner := .H, staged := { alarmCfg with hi := none }, due := 9 } ∧
      limitCheck { alarmCfg with hi := none } = true ∧ WaitingLaw limitRemoved ∧ (limitRemoved.slot 0).condition = .hi ∧
      limitOf { alarmCfg with hi := none } .hi = none) := by
  refine ⟨?_, ?_, ?_, ?_, waitingLaw_of (by decide +kernel), ?_, ?_, ?_, ?_, ?_, waitingLaw_of (by decide +kernel), ?_, ?_⟩
  all_goals try simp only [State.Ready, State.Admits, State.Takes]
  all_goals decide +kernel

theorem witness_ConfigNeedsAStoppedClass : up.Ready .H 0 ∧ 4 ≤ (4 : Byte).toNat ∧ (1 : Word16) ≠ 0 ∧
    (up.cls 3).state = .stopped ∧ posted.Ready .H 0 ∧ (posted.cls 3).state ≠ .stopped := by
  unfold State.Ready State.Admits State.Takes; decide +kernel

theorem witness_ClassesStartAndStop : posted.Ready .H 0 ∧ 4 ≤ (4 : Byte).toNat ∧ (posted.cls 3).state ≠ .stopped ∧
    (posted.cls 0).state = .stopped ∧ (posted.cls 3).state = .running ∧
    (posted.cls 3).job = some { job := jobOne, phase := .posted } ∧
    ((listed { ScanClass.reset with state := .waiting }).Ready .H 0 ∧
      ((listed { ScanClass.reset with state := .waiting }).cls 3).state = .waiting) ∧
    (converting.Ready .H 0 ∧ (converting.cls 3).state = .running ∧
      (converting.cls 3).job = some { job := jobOne, phase := .converting }) ∧
    ((listed { ScanClass.reset with state := .stopping }).Ready .H 0 ∧
      ((listed { ScanClass.reset with state := .stopping }).cls 3).state = .stopping) := by
  unfold State.Ready State.Admits State.Takes; decide +kernel

theorem witness_TriggerStartsAPass : 4 ≤ (4 : Byte).toNat ∧
    ((listed { ScanClass.reset with state := .waiting }).Ready .H 0 ∧
      ((listed { ScanClass.reset with state := .waiting }).cls 3).state = .waiting ∧
      ((listed { ScanClass.reset with state := .waiting }).cls 3).job = none ∧
      ((listed { ScanClass.reset with state := .waiting }).cls 3).list = { slot := 0, gen := 1 } :: []) ∧
    ((up.setCls 0 { ScanClass.reset with state := .waiting }).Ready .H 0 ∧
      ((up.setCls 0 { ScanClass.reset with state := .waiting }).cls 0).state = .waiting ∧
      ((up.setCls 0 { ScanClass.reset with state := .waiting }).cls 0).job = none ∧
      ((up.setCls 0 { ScanClass.reset with state := .waiting }).cls 0).list = []) ∧
    (posted.Ready .H 0 ∧ (posted.cls 3).state = .running ∧ (posted.cls 0).state = .stopped) ∧
    ((listed { ScanClass.reset with state := .stopping }).Ready .H 0 ∧
      ((listed { ScanClass.reset with state := .stopping }).cls 3).state = .stopping) := by
  unfold State.Ready State.Admits State.Takes; decide +kernel

theorem witness_TimersAndEdgesTrigger : posted.rstAsserted = false ∧ (posted.cls 3).periodTimer = some 7 ∧
    SchedulerLaw posted := ⟨by decide +kernel, by decide +kernel, scheduler_posted⟩

theorem witness_ClassReadsAreSnapshots : posted.Ready .H 0 ∧ 4 ≤ (4 : Byte).toNat ∧ 2 ≤ (2 : Byte).toNat := by
  unfold State.Ready State.Admits State.Takes; decide +kernel

theorem witness_InsertKeepsTheCursorsEntry :
    (fullList.Ready .H 0 ∧ fullList.names 127 1 = true ∧ 4 ≤ (4 : Byte).toNat ∧ 48 < (49 : Byte).toNat ∧
      (∀ d, ∀ e ∈ (fullList.cls d).list, e.slot ≠ 127 ∨ e.gen ≠ 1) ∧ (fullList.cls 2).list.length < (1 : Byte).toNat ∧
      (48 : Byte).toNat ≤ (fullList.cls 3).list.length ∧ (fullList.cls 3).list.length = 48 ∧
      (0 : Byte).toNat ≤ (fullList.cls 2).list.length ∧ (fullList.cls 2).list.length < 48) ∧
    (fullList.names 47 1 = true ∧ ∃ d, ∃ e ∈ (fullList.cls d).list, e.slot = 47 ∧ e.gen = 1) := by
  unfold State.Ready State.Admits State.Takes; decide +kernel

theorem witness_RemoveSettlesThePass :
    (fullList.Ready .H 0 ∧ fullList.names 127 1 = true ∧ 4 ≤ (4 : Byte).toNat ∧
      ∀ e ∈ (fullList.cls 3).list, e.slot ≠ 127 ∨ e.gen ≠ 1) ∧
    (posted.Ready .H 0 ∧ posted.names 0 1 = true ∧ (posted.cls 3).list = [] ++ { slot := 0, gen := 1 } :: [] ∧
      (posted.cls 3).cursor = ([] : List ListEntry).length ∧ (posted.cls 3).state = .running ∧
      (posted.cls 3).job = some { job := jobOne, phase := .posted }) ∧
    (converting.Ready .H 0 ∧ (converting.cls 3).job = some { job := jobOne, phase := .converting } ∧
      (converting.cls 3).cursor = ([] : List ListEntry).length) ∧
    ((listed ScanClass.reset).Ready .H 0 ∧ ((listed ScanClass.reset).cls 3).job = none ∧
      ((listed ScanClass.reset).cls 3).cursor = ([] : List ListEntry).length) ∧
    ((listed { ScanClass.reset with state := .waiting, cursor := 1 }).Ready .H 0 ∧ ([] : List ListEntry).length <
      ((listed { ScanClass.reset with state := .waiting, cursor := 1 }).cls 3).cursor) ∧
    ((fullList.cls 3).list = (fullList.cls 3).list.take 47 ++ { slot := 47, gen := 1 } :: [] ∧
      (fullList.cls 3).cursor < ((fullList.cls 3).list.take 47).length) := by
  unfold State.Ready State.Admits State.Takes; decide +kernel

theorem witness_DirectRequestsQueueAJob : one.Ready .H 0 ∧ 24 ≤ (24 : Byte).toNat ∧ 4 ≤ (4 : Byte).toNat ∧
    one.names 0 1 = true := by
  unfold State.Ready State.Admits State.Takes; decide +kernel

/-- Port H waiting for the queued sample of a point reference. -/
def sampleQueued (g : Generation) : State := (waitingFor one 0x15).setFrontEnd {
  converter := .idle, openSel := none, queue := [{ sampleJob with target := .sample 0 g }] }

theorem witness_GrantSettlesOrSamples :
    (queuedH.rstAsserted = false ∧ queuedH.frontEnd.converter = .idle ∧
      queuedH.frontEnd.queue = { port := .H, tag := 5, target := .convert 3 .g4, disposition := .answer } :: []) ∧
    ((sampleQueued 1).frontEnd.queue = { port := .H, tag := 5, target := .sample 0 1, disposition := .answer } :: [] ∧
      (sampleQueued 1).names 0 1 = true) ∧
    ((sampleQueued 2).frontEnd.queue = { port := .H, tag := 5, target := .sample 0 2, disposition := .answer } :: [] ∧
      (sampleQueued 2).names 0 2 = false ∧ (sampleQueued 2).Waits .H 5 0x15) ∧
    (posted.frontEnd.queue = [] ∧ (posted.cls 3).job = some { job := jobOne, phase := .posted } ∧
      ∀ d < 3, (posted.cls d).job = none) ∧
    (up.frontEnd.queue = [] ∧ ∀ c, (up.cls c).job = none) ∧
    ((heldH .settling).rstAsserted = false ∧ (heldH .settling).frontEnd.converter ≠ .idle ∧
      (heldH .settling).frontEnd.converter = .settling (.direct directJob 3 .g4) 22) := by
  unfold State.Waits; decide +kernel

/-- The same with point 0/1 retired while its sample converts. -/
def sampleStale : State := sampleH.setSlot 0 (PointSlot.freed 1)

theorem witness_DirectCompletionsAnswer :
    ((heldH .sampling).rstAsserted = false ∧ (heldH .sampling).frontEnd.converter = .sampling (.direct directJob 3 .g4) 22 ∧
      directJob.target = .convert 3 .g4 ∧ directJob.disposition = .answer ∧ (heldH .sampling).Waits .H 5 0x40) ∧
    ({ directJob with disposition := .discard }).disposition = .discard ∧
    (sampleH.rstAsserted = false ∧ WaitingLaw sampleH ∧ sampleH.frontEnd.converter = .sampling (.direct sampleJob 0 .g1) 5 ∧
      sampleJob.target = .sample 0 1 ∧ sampleH.Waits .H 5 0x15 ∧ sampleH.names 0 1 = true ∧
      (sampleH.slot 0).cfg.channel = 0 ∧ (sampleH.slot 0).cfg.gain = .g1) ∧
    (sampleStale.rstAsserted = false ∧ WaitingLaw sampleStale ∧
      sampleStale.frontEnd.converter = .sampling (.direct sampleJob 0 .g1) 5 ∧ sampleStale.Waits .H 5 0x15 ∧
      sampleStale.names 0 1 = false) := by
  refine ⟨?_, by decide, ⟨?_, waitingLaw_of (by decide +kernel), ?_⟩, ?_, waitingLaw_of (by decide +kernel), ?_⟩
  all_goals try simp only [State.Waits]
  all_goals decide +kernel

theorem witness_ClassCompletionsMoveThePass : converting.rstAsserted = false ∧
    converting.frontEnd.converter = .sampling (.scan 3 jobOne) 5 ∧ (converting.cls 3).state = .running ∧
    converting.names jobOne.slot jobOne.gen = true ∧ (converting.slot jobOne.slot).cfg.channel = jobOne.channel ∧
    (converting.slot jobOne.slot).cfg.gain = jobOne.gain ∧ (∀ w ∈ converting.waits, converting.anyDeliverable w.port = false) ∧
    (converting.cls 3).list.length ≤ (converting.cls 3).cursor + 1 ∧ (converting.cls 3).removedMark = false ∧
    ((converting.setCls 3 { converting.cls 3 with removedMark := true }).cls 3).list[0]? = some { slot := 0, gen := 1 } ∧
    ((converting.setCls 3 { converting.cls 3 with state := .stopping }).cls 3).state = .stopping ∧
    ((converting.setSlot 0 (PointSlot.freed 1)).frontEnd.converter = .sampling (.scan 3 jobOne) 5 ∧
      ((converting.setSlot 0 (PointSlot.freed 1)).cls 3).state = .running ∧
      (converting.setSlot 0 (PointSlot.freed 1)).names jobOne.slot jobOne.gen = false) := by decide +kernel

theorem witness_RawCandidateIsTheFirstTest : limitCheck alarmCfg = true ∧
    (∃ x, alarmCfg.hihi = some x ∧ x.toInt ≤ (900 : Word32).toInt) ∧ (∃ x, alarmCfg.hi = some x ∧ x.toInt ≤ (800 : Word32).toInt) ∧
    (∃ x, alarmCfg.lo = some x ∧ (100 : Word32).toInt ≤ x.toInt) :=
  ⟨by decide, ⟨900, rfl, by decide⟩, ⟨800, rfl, by decide⟩, ⟨100, rfl, by decide⟩⟩

theorem witness_DeadbandHoldsTheCondition : limitOf alarmCfg .hihi = some 900 ∧ limitOf alarmCfg .lo = some 100 ∧
    limitCheck alarmCfg = true ∧ rawCandidate alarmCfg 100 = .lo ∧ rawCandidate alarmCfg 800 = .hi ∧
    limitOf { PointConfig.reset with hi := some (-2147483648) } .hi = some (-2147483648) ∧
    (-2147483648 : Word32).toInt - (0 : Int) ≤ -2147483648 ∧
    limitOf { PointConfig.reset with lo := some 2147483647 } .lo = some 2147483647 ∧
    (2147483647 : Int) ≤ (2147483647 : Word32).toInt + 0 := by decide

theorem witness_CandidateNeedsTheDeadband : rawCandidate alarmCfg 900 = .hihi ∧
    rawCandidate { PointConfig.reset with lolo := some 5 } 5 = .lolo ∧ limitCheck alarmCfg = true ∧
    (limitOf alarmCfg .hi).isSome = true ∧ rawCandidate alarmCfg 899 = .hi ∧ Condition.hihi ≠ .normal := by decide

theorem witness_ConfirmationCountsSamples : (one.slot 0).condition = .normal ∧ Condition.hi ≠ (one.slot 0).condition ∧
    (1 : Nat) = (one.slot 0).cfg.confirm ∧
    (1 : Nat) ≠ ((withPoint up 0 1 501 plainCfg).slot 0).cfg.confirm := by decide +kernel

theorem witness_ConditionChangesHaveTheirEffects : Condition.hihi ≠ .normal ∧ (one.slot 0).link = none ∧
    ((linked.slot 0).link = some 0 ∧ (linked.action 0).state = .armed ∧ (linked.action 0).triggers.has .hihi = true ∧
      (linked.action 0).triggers.has .lo = false ∧ (linked.output (linked.action 0).output).pin = none) ∧
    ((linked.setOutput 1 { OutputChannel.reset with pin := some .L }).output 1).pin ≠ none ∧
    (((follow noticed).slot 0).cfg.policy = .follow ∧ (follow noticed).notice 0 = some pendingNotice ∧
      pendingNotice.state = .pending ∧ pendingNotice.cause = .entered) ∧
    ((follow (delivered (some heldRaise))).notice 0 =
      some { pendingNotice with state := .delivered .H, followOn := some heldRaise } ∧ heldRaise.cause = .entered) ∧
    (one.slot 0).cfg.policy = .latched := by decide +kernel

theorem witness_StaleTimersAndQualityNotices : one.rstAsserted = false ∧
    ((one.setSlot 0 { one.slot 0 with staleTimer := some 9 }).slot 0).staleTimer = some 9 := by decide +kernel

theorem witness_RaiseMakesFoldsOrHolds : one.notice 0 = none ∧
    (noticed.notice 0 = some pendingNotice ∧ pendingNotice.state = .pending) ∧
    (delivered none).notice 0 = some { pendingNotice with state := .delivered .H } := by decide +kernel

theorem witness_FetchDeliversTheBest : up.Ready .H 0 ∧ (∀ i, up.deliverable .H i = none) ∧ noticed.Ready .H 0 ∧
    ∃ i, noticed.deliverable .H i ≠ none := by
  unfold State.Ready State.Admits State.Takes; decide +kernel

theorem witness_WaitFetchesWaitsOrTimesOut : (1 : Word16) ≠ 0 ∧ (waitingH.Ready .H 0 ∧ ∃ w ∈ waitingH.waits, w.port = .H) ∧
    (up.Ready .H 0 ∧ (∀ w ∈ up.waits, w.port ≠ .H) ∧ ∀ i, up.deliverable .H i = none) ∧
    (noticed.Ready .H 0 ∧ (∀ w ∈ noticed.waits, w.port ≠ .H) ∧ ∃ i, noticed.deliverable .H i ≠ none) ∧
    (waitingH.rstAsserted = false ∧ { port := .H, tag := 5, due := 9 } ∈ waitingH.waits ∧
      (waitingH.waits.map WaitRec.port).Nodup ∧ waitingH.Waits .H 5 0x51) := by
  unfold State.Ready State.Admits State.Takes State.Waits; decide +kernel

/-- Both ports waiting, port L first, with a notice deliverable to port H alone. -/
def bothWait : State :=
  ((((waitingFor noticed 0x51).setPort .L { attachedPort with openTags := [waitingTag 6 0x51] }).setWaits
    [{ port := .L, tag := 6, due := 8 }, { port := .H, tag := 5, due := 9 }])).setSlot 0 {
      one.slot 0 with cfg := { alarmCfg with route := .h } }

theorem witness_WaitsAreServedInOrder : (bothWait.waits.map WaitRec.port).Nodup ∧
    (∀ w ∈ waitingH.waits, ∀ i, waitingH.deliverable w.port i = none) ∧
    ((waitingH.setNotice 0 (some pendingNotice)).waits = { port := .H, tag := 5, due := 9 } :: [] ∧
      (waitingH.setNotice 0 (some pendingNotice)).Waits .H 5 0x51 ∧
      ∃ i, (waitingH.setNotice 0 (some pendingNotice)).deliverable .H i ≠ none) ∧
    (bothWait.waits = [{ port := .L, tag := 6, due := 8 }, { port := .H, tag := 5, due := 9 }] ∧
      (∀ i, bothWait.deliverable .L i = none) ∧ bothWait.Waits .H 5 0x51 ∧ ∃ i, bothWait.deliverable .H i ≠ none) := by
  unfold State.Waits; decide +kernel

theorem witness_AckRemovesOrRenews : (noticed.Ready .H 0 ∧ noticed.names 0 1 = true ∧
      noticed.notice 0 = some pendingNotice ∧ pendingNotice.state ≠ .delivered .H) ∧
    ((delivered none).Ready .H 0 ∧ (delivered none).names 0 1 = true ∧
      (delivered none).notice 0 = some { pendingNotice with state := .delivered .H }) ∧
    ((delivered (some heldRaise)).Ready .H 0 ∧ (delivered (some heldRaise)).names 0 1 = true ∧
      (delivered (some heldRaise)).notice 0 =
        some { pendingNotice with state := .delivered .H, followOn := some heldRaise } ∧
      WaitingLaw (delivered (some heldRaise))) := by
  refine ⟨?_, ?_, ?_, ?_, ?_, waitingLaw_of (by decide +kernel)⟩
  all_goals try simp only [State.Ready, State.Admits, State.Takes]
  all_goals decide +kernel

/-- Every action record ARMED. -/
def fullActions : State := { up with actions := Vector.replicate 16 armedAction }

/-- Only the last action record FREE. -/
def lastAction : State := fullActions.setAction 15 ActionRec.reset

theorem witness_ActionRecordsAreMadeAndFreed : up.Ready .H 0 ∧ 15 < (16 : Byte).toNat ∧ 4 ≤ (4 : Byte).toNat ∧
    4095 < (4096 : Word16).toNat ∧ 7 < (8 : Byte).toNat ∧ (15 : Byte) ≠ 0 ∧ (15 : Byte).toNat ≤ 15 ∧ (7 : Byte).toNat ≤ 7 ∧
    (fullActions.Ready .H 0 ∧ ∀ a, (fullActions.action a).state ≠ .free) ∧
    (lastAction.Ready .H 0 ∧ (lastAction.action 15).state = .free ∧ ∀ c < 15, (lastAction.action c).state ≠ .free) ∧
    16 ≤ (16 : Byte).toNat ∧
    (linked.Ready .H 0 ∧ (linked.action 0).state = .armed ∧ (linked.action 0).linkCount ≠ 0 ∧ (linked.action 1).state = .free) ∧
    (fullActions.action 0).linkCount = 0 := by
  unfold State.Ready State.Admits State.Takes; decide +kernel

theorem witness_LinksMoveWithTheirCount : 16 ≤ (16 : Byte).toNat ∧
    (linked.Ready .H 0 ∧ linked.names 0 1 = true ∧ (linked.slot 0).claim.map Claim.owner ≠ some Port.H.other ∧
      (linked.action 1).state ≠ .armed ∧ (linked.action 0).state = .armed ∧ (linked.slot 0).link = some 0) ∧
    ((one.setAction 0 armedAction).Ready .H 0 ∧ (one.setAction 0 armedAction).names 0 1 = true ∧
      ((one.setAction 0 armedAction).action 0).state = .armed ∧ ((one.setAction 0 armedAction).slot 0).link = none) ∧
    ((claimed .L).Ready .H 0 ∧ (claimed .L).names 0 1 = true ∧
      ((claimed .L).slot 0).claim.map Claim.owner = some Port.H.other) := by
  unfold State.Ready State.Admits State.Takes; decide +kernel

theorem witness_DrivesSaveAndRestoresUndo : (linked.output (linked.action 0).output).pin = none ∧
    2 ≤ (linked.action 0).budget ∧ ((linked.setAction 0 { armedAction with budget := 1 }).action 0).budget ≤ 1 ∧
    (((linked.setOutput 1 { OutputChannel.reset with lastWriter := .action 0 0, saved := some 7 }).output 1).lastWriter =
      .action 0 0 ∧
      ((linked.setOutput 1 { OutputChannel.reset with lastWriter := .action 0 0, saved := some 7 }).output 1).saved = some 7) ∧
    ((linked.setOutput 1 { OutputChannel.reset with
      lastWriter := .action 0 0, saved := some 7, pin := some .L }).output 1).pin ≠ none := by decide +kernel

/-- Port L pins output 3. -/
def pinnedL : State := up.setOutput 3 { OutputChannel.reset with pin := some .L }

theorem witness_WriteAndPinTakeTheChannel : pinnedL.Ready .H 0 ∧ 4 ≤ (4 : Byte).toNat ∧ 4095 < (4096 : Word16).toNat ∧
    (pinnedL.output 3).pin = some Port.H.other ∧ (pinnedL.output 0).pin ≠ some Port.H.other ∧
    (pinnedL.Ready .L 0 ∧ (pinnedL.output 3).pin = some .L) ∧ (pinnedL.output 3).pin ≠ some .H := by
  unfold State.Ready State.Admits State.Takes; decide +kernel

theorem witness_FallbackAndReadOfOutputs : pinnedL.Ready .H 0 ∧ 4 ≤ (4 : Byte).toNat ∧ 1 < (2 : Byte).toNat ∧
    4095 < (4096 : Word16).toNat ∧ (pinnedL.output 3).pin = some Port.H.other ∧
    (pinnedL.output 0).pin ≠ some Port.H.other := by
  unfold State.Ready State.Admits State.Takes; decide +kernel

theorem witness_FramesReadBackAsTheirRequests : (Instr.portDetach .H 15).carrier = some .H ∧
    encodeFrame (.portDetach .H 15) = some [0x04, 0x0F, 0x05, 0xE8] := by decide

/-- Port H has a session, and a NOTICE.FETCH waits to be taken. -/
def asked : State := { up with pending := [.noticeFetch .H 0] }

theorem witness_StepsKeepTheKeyMap : KeyLaw asked ∧ ∃ t, step asked = .next t :=
  ⟨by unfold KeyLaw; decide +kernel, _, rfl⟩

theorem witness_StepsKeepOwnersAttached :
    FreeSlotLaw asked ∧ ClaimLaw asked ∧ NoticeLaw asked ∧ PinLaw asked ∧ ∃ t, step asked = .next t := by
  refine ⟨by unfold FreeSlotLaw; decide +kernel, ?_, ?_, ?_, _, rfl⟩
  · intro i c h
    rw [show (asked.slot i).claim = none from (by decide +kernel : ∀ i, (asked.slot i).claim = none) i] at h
    cases h
  · intro i n h
    rw [show asked.notice i = none from (by decide +kernel : ∀ i, asked.notice i = none) i] at h
    cases h
  · intro o p h
    rw [show (asked.output o).pin = none from (by decide +kernel : ∀ o, (asked.output o).pin = none) o] at h
    cases h

theorem witness_StepsKeepConfigurationsLegal :
    ConfigLaw asked ∧ PendingLaw asked ∧ ConditionLaw asked ∧ ∃ t, step asked = .next t := by
  refine ⟨?_, ?_, ?_, _, rfl⟩
  · unfold ConfigLaw PointConfig.InRange; decide +kernel
  · unfold PendingLaw; decide +kernel
  · unfold ConditionLaw; decide +kernel

theorem witness_StepsKeepTheScheduler :
    SchedulerLaw asked ∧ FreeSlotLaw asked ∧ StaleTimerLaw asked ∧ PeriodTimerLaw asked ∧ ∃ t, step asked = .next t := by
  refine ⟨scheduler_up, by unfold FreeSlotLaw; decide +kernel, fun i due h => ?_, by unfold PeriodTimerLaw; decide +kernel,
    _, rfl⟩
  rw [show (asked.slot i).staleTimer = none from (by decide +kernel : ∀ i, (asked.slot i).staleTimer = none) i] at h
  cases h

theorem witness_StepsKeepLinkCounts : FreeSlotLaw asked ∧ ActionLaw asked ∧ ∃ t, step asked = .next t := by
  refine ⟨by unfold FreeSlotLaw; decide +kernel, fun a => ?_, _, rfl⟩
  rw [show asked.action a = ActionRec.reset from (by decide +kernel : ∀ a, asked.action a = ActionRec.reset) a]
  exact ⟨(by decide +kernel : ∀ a, ActionRec.reset.linkCount = asked.linkedPoints a) a, rfl, rfl⟩

theorem portRec_legal_attached : attachedPort.Legal := by unfold PortRec.Legal PortRec.CollectLegal; exact ⟨by decide, by decide, by decide, by decide, by decide, by decide, by decide,
    by decide, by decide, trivial⟩

theorem witness_StepsKeepTagsAndAnswersPaired :
    PortLaw asked ∧ WaitingLaw asked ∧ FreeSlotLaw asked ∧ ServedLaw asked ∧ ∃ t, step asked = .next t :=
  ⟨⟨portRec_legal_attached, portRec_legal_attached⟩, quiet_up, by unfold FreeSlotLaw; decide +kernel,
    by unfold ServedLaw; decide +kernel, _, rfl⟩

theorem witness_StepsKeepAttentionAndHeldLines : AttentionLaw asked ∧ HeldLaw asked ∧ ∃ t, step asked = .next t := by
  refine ⟨by unfold AttentionLaw; decide +kernel, ⟨fun p h => ?_, fun h => ?_⟩, _, rfl⟩
  · cases p
    · exact absurd h (by decide)
    · exact absurd h (by decide)
  · exact absurd h (by decide)

end Sys2Proof.Tests
end

section
/-! SUPPORT. The limit check (R9) said as an order on the limits that are present, and the two requests that it refuses
(R10, R33). -/

namespace Sys2Proof.Machine

/-! ## The limit check as an order on the present limits -/

/-- The upper value is above the lower one by more than the deadband, the gap formed exactly (R9). -/
def ClearlyBelow (deadband lower upper : Int) : Prop := lower < upper ∧ deadband < upper - lower

/-- Why the check of adjacent gaps is enough: gaps add up. -/
theorem ClearlyBelow.trans {d a b c : Int} (hab : ClearlyBelow d a b) (hbc : ClearlyBelow d b c) :
    ClearlyBelow d a c := by
  unfold ClearlyBelow at *
  omega

theorem gapsPass_iff_isChain (d : Int) (l : List Int) : gapsPass d l = true ↔ l.IsChain (ClearlyBelow d) := by
  induction l with
  | nil => simp [gapsPass]
  | cons a l ih =>
    cases l with
    | nil => simp [gapsPass]
    | cons b l => simp [gapsPass, ih, ClearlyBelow]

/-- The check of adjacent limits holds every two limits apart. -/
theorem gapsPass_iff_pairwise (d : Int) (l : List Int) : gapsPass d l = true ↔ l.Pairwise (ClearlyBelow d) := by
  have : IsTrans Int (ClearlyBelow d) := ⟨fun _ _ _ => ClearlyBelow.trans⟩
  rw [gapsPass_iff_isChain, List.isChain_iff_pairwise]

/-- The limits a configuration may have, in the order R9 names them. -/
def limitOrder : List Condition := [.lolo, .lo, .hi, .hihi]

theorem mem_limitOrder (x : Condition) : x ∈ limitOrder ↔ x ≠ .normal := by
  cases x <;> decide

theorem presentLimits_eq (c : PointConfig) :
    presentLimits c = (limitOrder.filterMap (limitOf c)).map BitVec.toInt := by
  have h : limitOrder.map (limitOf c) = [c.lolo, c.lo, c.hi, c.hihi] := rfl
  rw [presentLimits, ← h, List.filterMap_map, Function.id_comp]

/-- In a list without repetitions, a relation between earlier and later elements is one between lower and higher
positions. -/
theorem pairwise_iff_idxOf_lt {α : Type} [DecidableEq α] {R : α → α → Prop} {l : List α} (hl : l.Nodup) :
    l.Pairwise R ↔ ∀ a b, l.idxOf a < l.idxOf b → b ∈ l → R a b := by
  rw [List.pairwise_iff_getElem]
  constructor
  · intro h a b hab hb
    have hb' := List.idxOf_lt_length_of_mem hb
    simpa using h _ _ (hab.trans hb') hb' hab
  · intro h i j hi hj hij
    exact h _ _ (by simpa [hl.idxOf_getElem] using hij) (List.getElem_mem hj)

/-- The limit check passes exactly the configurations whose present limits are all apart, in the order of R9. -/
theorem limitCheck_iff (c : PointConfig) : limitCheck c = true ↔
    ∀ a b, limitOrder.idxOf a < limitOrder.idxOf b → b ≠ .normal → ∀ x y : Word32,
      limitOf c a = some x → limitOf c b = some y → ClearlyBelow c.deadband.toNat x.toInt y.toInt := by
  have hnodup : limitOrder.Nodup := by decide
  rw [limitCheck, gapsPass_iff_pairwise, presentLimits_eq, List.pairwise_map, List.pairwise_filterMap,
    pairwise_iff_idxOf_lt hnodup]
  simp only [mem_limitOrder]
  exact ⟨fun h a b hab hb x y hx hy => h a b hab hb x hx y hy,
    fun h a b hab hb x hx y hy => h a b hab hb x y hx hy⟩

/-! ## The requests that the limit check refuses -/

namespace State

theorem exec_pointDefine (s : State) (p : Port) (t : Tag) (b : ConfigBlock) :
    exec (.pointDefine p t b) s = .next (s.request p t .pointDefine (ownDefine b)) := rfl

theorem exec_editCommit (s : State) (p : Port) (t : Tag) (slot gen : Byte) :
    exec (.editCommit p t slot gen) s = .next (s.request p t .editCommit (ownCommit p slot gen)) := rfl

/-- R10 step 2. -/
theorem ownDefine_invalidLimits (s : State) (b : ConfigBlock) (cfg : PointConfig) (hcfg : configOf b = some cfg)
    (hkey : b.key ≠ 0) (hfails : limitCheck cfg = false) : ownDefine b s = s.reply .invalidLimits := by
  simp only [ownDefine, hcfg, if_neg hkey, if_pos hfails]

@[simp] theorem openTag_ownClaim (s : State) (p : Port) (t : Tag) (k : Byte) (q : Port) (i : SlotNo) :
    (s.openTag p t k).ownClaim q i = s.ownClaim q i := by
  simp [ownClaim]

theorem ownClaim_of_owner (s : State) (p : Port) (i : SlotNo) (c : Claim) (hc : (s.slot i).claim = some c)
    (ho : c.owner = p) : s.ownClaim p i = some c := by
  simp [ownClaim, hc, ho]

/-- R33: a failed commit leaves the claim, its staged copy and its expiry. -/
theorem ownCommit_invalidLimits (s : State) (p : Port) (i : SlotNo) (g : Generation) (c : Claim)
    (hg : s.names i g = true) (hc : s.ownClaim p i = some c) (hfails : limitCheck c.staged = false) :
    ownCommit p (byte i.val) g s = s.reply .invalidLimits := by
  rw [ownCommit, withRef_good s i g _ hg]
  simp [hc, hfails]

end State

/-! ## The statement -/

/-- Settles O14: adjacent gaps above the deadband put every two present limits apart (`limitCheck_iff`), and each of the
two requests is answered by its owner with no effect. -/
theorem limitCheckIsOrderAndDeadband : Obligations.LimitCheckIsOrderAndDeadband := by
  refine ⟨limitCheck_iff, ?define, ?commit⟩
  case define =>
    intro s p t b cfg hready hcfg hkey hfails
    rw [State.exec_pointDefine, State.request_replied s p t .pointDefine _ .invalidLimits [] hready
      (State.ownDefine_invalidLimits _ b cfg hcfg hkey hfails)]
    rfl
  case commit =>
    intro s p t i g c hready hg hc ho hfails
    have hclaim := State.ownClaim_of_owner s p i c hc ho
    rw [State.exec_editCommit, State.request_replied s p t .editCommit _ .invalidLimits [] hready
      (State.ownCommit_invalidLimits _ p i g c (by simpa using hg) (by simpa using hclaim) hfails)]
    rfl

end Sys2Proof.Machine
end

section
/-! SUPPORT. The requests that configure, trigger and read a scan class (R46, R54, R67, R68): what each owner does with
bytes in and out of range, and what a trigger does in each state of the class (R55, R56, R59). -/

namespace Sys2Proof.Machine
namespace State

theorem exec_classConfig (s : State) (p : Port) (t : Tag) (cls source : Byte) (period : Word16) :
    exec (.classConfig p t cls source period) s =
      .next (s.request p t .classConfig (ownConfig cls source period)) := rfl

theorem exec_classTrigger (s : State) (p : Port) (t : Tag) (cls : Byte) :
    exec (.classTrigger p t cls) s = .next (s.request p t .classTrigger (ownTrigger cls)) := rfl

theorem exec_classStatus (s : State) (p : Port) (t : Tag) (cls clear : Byte) :
    exec (.classStatus p t cls clear) s = .next (s.request p t .classStatus (ownClassStatus cls clear)) := rfl

theorem exec_listRead (s : State) (p : Port) (t : Tag) (cls : Byte) :
    exec (.listRead p t cls) s = .next (s.request p t .listRead (ownListRead cls)) := rfl

/-! ## CLASS.CONFIG (R46) -/

/-- The first test of R46, made before the class is looked at. -/
theorem ownConfig_badArgument (s : State) (cls source : Byte) (period : Word16)
    (h : 4 ≤ cls.toNat ∨ 4 ≤ source.toNat ∨ period = 0) :
    ownConfig cls source period s = s.reply .badArgument := by
  rw [← classOf_eq_none, ← sourceOf_eq_none] at h
  unfold ownConfig
  split
  next c src hc hsrc =>
    have hperiod : period = 0 := by simpa [hc, hsrc] using h
    rw [if_pos hperiod]
  next => rfl

/-- The second test of R46. -/
theorem ownConfig_classActive (s : State) (c : ClassNo) (src : TriggerSource) (period : Word16) (hperiod : period ≠ 0)
    (hstate : (s.cls c).state ≠ .stopped) :
    ownConfig (byte c.val) src.code period s = s.reply .classActive := by
  simp only [ownConfig, classOf_byte, sourceOf_code, if_neg hperiod, if_pos hstate]

theorem ownConfig_writes (s : State) (c : ClassNo) (src : TriggerSource) (period : Word16) (hperiod : period ≠ 0)
    (hstate : (s.cls c).state = .stopped) : ownConfig (byte c.val) src.code period s =
      (s.setCls c { s.cls c with source := src, period := period }, .done .ok []) := by
  simp only [ownConfig, classOf_byte, sourceOf_code, if_neg hperiod, if_neg (not_not.2 hstate)]

/-! ## A trigger in each state of its class (R54 to R56, R59) -/

/-- The first job carries the channel and the gain its point has at posting (R56). -/
theorem trigger_posts (s : State) (c : ClassNo) (e : ListEntry) (rest : List ListEntry)
    (hstate : (s.cls c).state = .waiting) (hjob : (s.cls c).job = none) (hlist : (s.cls c).list = e :: rest) :
    s.trigger c = (s.setCls c { s.cls c with
      state := .running, cursor := 0, passSeq := (s.cls c).passSeq + 1
      job := some { phase := .posted, job := s.jobFor e } }, some .started) := by
  simp only [trigger, hstate]
  rw [continuePass_posts _ _ e (by simp) (by simpa using hjob) (by simp [hlist])]
  simp [jobFor]

/-- A pass over an empty list is counted and leaves the class WAITING again (R59). -/
theorem trigger_completes (s : State) (c : ClassNo) (hstate : (s.cls c).state = .waiting)
    (hjob : (s.cls c).job = none) (hlist : (s.cls c).list = []) :
    s.trigger c = (s.setCls c { s.cls c with cursor := 0, passSeq := (s.cls c).passSeq + 1 }, some .started) := by
  simp only [trigger, hstate]
  rw [continuePass_completes _ _ (by simp) (by simpa using hjob) (by simp [hlist])]
  simp [← hstate]

theorem trigger_overruns (s : State) (c : ClassNo) (hstate : (s.cls c).state = .running) :
    s.trigger c = (s.setCls c { s.cls c with overruns := min 255 ((s.cls c).overruns + 1) }, some .overrun) := by
  simp only [trigger, hstate]

theorem trigger_ignored (s : State) (c : ClassNo) (hstate : (s.cls c).state = .stopping) :
    s.trigger c = (s, some .ignored) := by
  simp only [trigger, hstate]

theorem trigger_stopped (s : State) (c : ClassNo) (hstate : (s.cls c).state = .stopped) :
    s.trigger c = (s, none) := by
  simp only [trigger, hstate]

theorem openTag_continuePass (s : State) (p : Port) (t : Tag) (k : Byte) (c : ClassNo) :
    (s.openTag p t k).continuePass c = (s.continuePass c).openTag p t k := by
  simp only [continuePass, openTag_cls, jobFor, openTag_slot, openTag_setCls]
  split
  next =>
    split
    next => rfl
    next => rfl
  next => rfl

/-- A trigger neither reads nor writes the open tags of a port. -/
theorem openTag_trigger (s : State) (p : Port) (t : Tag) (k : Byte) (c : ClassNo) :
    (s.openTag p t k).trigger c = ((s.trigger c).1.openTag p t k, (s.trigger c).2) := by
  simp only [trigger, openTag_cls, openTag_setCls, openTag_continuePass]
  cases (s.cls c).state with
  | waiting => rfl
  | running => rfl
  | stopping => rfl
  | stopped => rfl

/-! ## CLASS.TRIGGER (R54) -/

theorem ownTrigger_badArgument (s : State) (cls : Byte) (h : 4 ≤ cls.toNat) :
    ownTrigger cls s = s.reply .badArgument := by
  simp only [ownTrigger, (classOf_eq_none cls).2 h]

/-- A trigger request to a class that is not STOPPED is answered with what the trigger did. -/
theorem exec_classTrigger_answered (s u : State) (p : Port) (t : Tag) (c : ClassNo) (o : TriggerOutcome)
    (hready : s.Ready p t) (htrigger : s.trigger c = (u, some o)) :
    exec (.classTrigger p t (byte c.val)) s = .next (u.answered p t 0x33 .ok [o.code]) := by
  have hport : u.port p = s.port p := by
    obtain ⟨r, hr⟩ := trigger_frame s c
    rw [htrigger] at hr
    rw [show u = s.setCls c r from hr, setCls_port]
  rw [exec_classTrigger, request_answered s u p t .classTrigger _ .ok [o.code] hready
    (by simp only [ownTrigger, classOf_byte, openTag_trigger, htrigger]) hport]
  rfl

theorem exec_classTrigger_stopped (s : State) (p : Port) (t : Tag) (c : ClassNo) (hready : s.Ready p t)
    (hstate : (s.cls c).state = .stopped) :
    exec (.classTrigger p t (byte c.val)) s = .next (s.answered p t 0x33 .classStopped []) := by
  rw [exec_classTrigger, request_replied s p t .classTrigger _ .classStopped [] hready
    (by simp only [ownTrigger, classOf_byte, openTag_trigger, trigger_stopped s c hstate, reply])]
  rfl

/-! ## CLASS.STATUS and LIST.READ (R67, R68) -/

theorem ownClassStatus_badArgument (s : State) (cls clear : Byte) (h : 4 ≤ cls.toNat ∨ 2 ≤ clear.toNat) :
    ownClassStatus cls clear s = s.reply .badArgument := by
  rw [← classOf_eq_none, ← yesNoOf_eq_none] at h
  unfold ownClassStatus
  split
  next c hc hclear => simp [hc, hclear] at h
  next c hc hclear => simp [hc, hclear] at h
  next => rfl

/-- The bytes answered are those of the class before the clear (R68). -/
theorem ownClassStatus_snapshot (s : State) (c : ClassNo) (clear : Bool) :
    ownClassStatus (byte c.val) (yesNoByte clear) s =
      (s.setCls c { s.cls c with overruns := if clear then 0 else (s.cls c).overruns },
        .done .ok (classBytes (s.cls c))) := by
  cases clear with
  | false =>
    have hsame : s.setCls c { s.cls c with overruns := (s.cls c).overruns } = s := setCls_cls_self s c
    simpa [ownClassStatus, reply] using hsame.symm
  | true => simp [ownClassStatus]

theorem jobPhase_code_eq (phase : JobPhase) : phase.code = if phase = .posted then 1 else 2 := by
  cases phase with
  | posted => rfl
  | converting => rfl

theorem ownListRead_badArgument (s : State) (cls : Byte) (h : 4 ≤ cls.toNat) :
    ownListRead cls s = s.reply .badArgument := by
  simp only [ownListRead, (classOf_eq_none cls).2 h]

theorem ownListRead_snapshot (s : State) (c : ClassNo) :
    ownListRead (byte c.val) s = s.reply .ok (listBytes (s.cls c)) := by
  simp only [ownListRead, classOf_byte]

end State

/-! ## The statements -/

/-- Settles O23: the two tests of R46 in their order, then the write of the class record. -/
theorem configNeedsAStoppedClass : Obligations.ConfigNeedsAStoppedClass := by
  intro s p t hready
  refine ⟨?badArgument, ?classActive, ?writes⟩
  case badArgument =>
    intro c src n hrange
    rw [State.exec_classConfig, State.request_replied s p t .classConfig _ .badArgument [] hready
      (State.ownConfig_badArgument _ c src n hrange)]
    rfl
  case classActive =>
    intro c src n hperiod hstate
    rw [State.exec_classConfig, State.request_replied s p t .classConfig _ .classActive [] hready
      (State.ownConfig_classActive _ c src n hperiod (by simpa using hstate))]
    rfl
  case writes =>
    intro c src n hperiod hstate
    rw [State.exec_classConfig, State.request_answered s
      (s.setCls c { s.cls c with source := src, period := n }) p t .classConfig _ .ok [] hready
      (by rw [State.ownConfig_writes _ c src n hperiod (by simpa using hstate), State.openTag_cls,
        State.openTag_setCls])
      (by simp)]
    rfl

/-- Settles O25: one equation of the trigger for each state of the class, answered by `exec_classTrigger_answered`. -/
theorem triggerStartsAPass : Obligations.TriggerStartsAPass := by
  intro s p t hready
  refine ⟨?badArgument, ?posts, ?completes, ?overruns, ?ignored, ?stopped⟩
  case badArgument =>
    intro b hb
    rw [State.exec_classTrigger, State.request_replied s p t .classTrigger _ .badArgument [] hready
      (State.ownTrigger_badArgument _ b hb)]
    rfl
  case posts =>
    intro c e rest hstate hjob hlist
    exact State.exec_classTrigger_answered s _ p t c .started hready (State.trigger_posts s c e rest hstate hjob hlist)
  case completes =>
    intro c hstate hjob hlist
    exact State.exec_classTrigger_answered s _ p t c .started hready (State.trigger_completes s c hstate hjob hlist)
  case overruns =>
    intro c hstate
    exact State.exec_classTrigger_answered s _ p t c .overrun hready (State.trigger_overruns s c hstate)
  case ignored =>
    intro c hstate
    exact State.exec_classTrigger_answered s _ p t c .ignored hready (State.trigger_ignored s c hstate)
  case stopped =>
    intro c hstate
    exact State.exec_classTrigger_stopped s p t c hready hstate

/-- Settles O27: both requests answer from the class record as it stands at acceptance, and the only write is the
clear of the overrun count (`ownClassStatus_snapshot`). -/
theorem classReadsAreSnapshots : Obligations.ClassReadsAreSnapshots := by
  intro s p t hready
  refine ⟨?statusBad, ?readBad, ?read, ?status⟩
  case statusBad =>
    intro b q hrange
    rw [State.exec_classStatus, State.request_replied s p t .classStatus _ .badArgument [] hready
      (State.ownClassStatus_badArgument _ b q hrange)]
    rfl
  case readBad =>
    intro b hb
    rw [State.exec_listRead, State.request_replied s p t .listRead _ .badArgument [] hready
      (State.ownListRead_badArgument _ b hb)]
    rfl
  case read =>
    intro c
    rw [State.exec_listRead, State.request_replied s p t .listRead _ .ok (listBytes (s.cls c)) hready
      (by rw [State.ownListRead_snapshot, State.openTag_cls]; rfl)]
    rfl
  case status =>
    intro c clear
    rw [State.exec_classStatus, State.request_answered s
      (s.setCls c { s.cls c with overruns := if clear then 0 else (s.cls c).overruns }) p t .classStatus _ .ok
      (classBytes (s.cls c)) hready (by simp [State.ownClassStatus_snapshot]) (by simp)]
    cases hjob : (s.cls c).job with
    | none =>
      simp only [classBytes, hjob]
      rfl
    | some j =>
      simp only [classBytes, hjob, currentJobBytes, State.jobPhase_code_eq]
      rfl

end Sys2Proof.Machine
end

section
/-! SUPPORT. The tests of the condition evaluator: the raw candidate as the first limit test that holds (R93), the deadband
test of a condition (R95), and what the limit check says of a value that meets a limit (R9). -/

namespace Sys2Proof.Machine

/-! ## The raw candidate (R93) -/

theorem rawCandidate_hihi (c : PointConfig) (v : Word32) (hhihi : atOrAbove v c.hihi = true) :
    rawCandidate c v = .hihi := by
  rw [rawCandidate, if_pos hhihi]

theorem rawCandidate_hi (c : PointConfig) (v : Word32) (hhihi : ¬atOrAbove v c.hihi = true)
    (hhi : atOrAbove v c.hi = true) : rawCandidate c v = .hi := by
  rw [rawCandidate, if_neg hhihi, if_pos hhi]

/-- Where no high test holds, the low tests decide. -/
theorem rawCandidate_of_not_high (c : PointConfig) (v : Word32) (hhihi : ¬atOrAbove v c.hihi = true)
    (hhi : ¬atOrAbove v c.hi = true) : rawCandidate c v =
      if atOrBelow v c.lolo then .lolo else if atOrBelow v c.lo then .lo else .normal := by
  rw [rawCandidate, if_neg hhihi, if_neg hhi]

theorem meets_high_of_rawCandidate (c : PointConfig) (v : Word32)
    (h : rawCandidate c v = .hi ∨ rawCandidate c v = .hihi) :
    ∃ b, (b = c.hi ∨ b = c.hihi) ∧ atOrAbove v b = true := by
  by_cases hhihi : atOrAbove v c.hihi = true
  · exact ⟨c.hihi, .inr rfl, hhihi⟩
  by_cases hhi : atOrAbove v c.hi = true
  · exact ⟨c.hi, .inl rfl, hhi⟩
  rw [rawCandidate_of_not_high c v hhihi hhi] at h
  split_ifs at h <;> simp at h

theorem meets_low_of_rawCandidate (c : PointConfig) (v : Word32)
    (h : rawCandidate c v = .lo ∨ rawCandidate c v = .lolo) :
    ∃ a, (a = c.lolo ∨ a = c.lo) ∧ atOrBelow v a = true := by
  by_cases hhihi : atOrAbove v c.hihi = true
  · simp [rawCandidate_hihi c v hhihi] at h
  by_cases hhi : atOrAbove v c.hi = true
  · simp [rawCandidate_hi c v hhihi hhi] at h
  rw [rawCandidate_of_not_high c v hhihi hhi] at h
  split_ifs at h with hlolo hlo
  · exact ⟨c.lolo, .inl rfl, hlolo⟩
  · exact ⟨c.lo, .inr rfl, hlo⟩
  · simp at h

/-! ## The two sides of NORMAL under the limit check (R9) -/

/-- A value that meets a low limit clears every high limit by more than the deadband. -/
theorem clear_of_high_of_meets_low (c : PointConfig) (hcheck : limitCheck c = true) (v l : Word32)
    {a b : Option Word32} (ha : a = c.lolo ∨ a = c.lo) (hb : b = c.hi ∨ b = c.hihi) (hmeets : atOrBelow v a = true)
    (hl : b = some l) : v.toInt < l.toInt - c.deadband.toNat := by
  obtain ⟨y, hy, hvy⟩ := (atOrBelow_iff v a).1 hmeets
  have hgap := (low_lt_high c hcheck a b ha hb y l hy hl).2
  omega

/-- A value that meets a high limit clears every low limit by more than the deadband. -/
theorem clear_of_low_of_meets_high (c : PointConfig) (hcheck : limitCheck c = true) (v l : Word32)
    {a b : Option Word32} (ha : a = c.lolo ∨ a = c.lo) (hb : b = c.hi ∨ b = c.hihi) (hmeets : atOrAbove v b = true)
    (hl : a = some l) : l.toInt + c.deadband.toNat < v.toInt := by
  obtain ⟨y, hy, hyv⟩ := (atOrAbove_iff v b).1 hmeets
  have hgap := (low_lt_high c hcheck a b ha hb l y hl hy).2
  omega

theorem not_meets_high_and_low (c : PointConfig) (hcheck : limitCheck c = true) (v : Word32) {a b : Option Word32}
    (ha : a = c.lolo ∨ a = c.lo) (hb : b = c.hi ∨ b = c.hihi) (hhigh : atOrAbove v b = true)
    (hlow : atOrBelow v a = true) : False := by
  obtain ⟨l, hl, hlv⟩ := (atOrAbove_iff v b).1 hhigh
  have hvl := clear_of_high_of_meets_low c hcheck v l ha hb hlow hl
  omega

/-! ## The deadband test (R95) -/

theorem limitOf_high (c : PointConfig) {x : Condition} (hx : x = .hi ∨ x = .hihi) :
    limitOf c x = c.hi ∨ limitOf c x = c.hihi :=
  hx.imp (congrArg (limitOf c)) (congrArg (limitOf c))

theorem limitOf_low (c : PointConfig) {x : Condition} (hx : x = .lo ∨ x = .lolo) :
    limitOf c x = c.lolo ∨ limitOf c x = c.lo :=
  hx.symm.imp (congrArg (limitOf c)) (congrArg (limitOf c))

theorem clearsDeadband_high (c : PointConfig) (v l : Word32) {x : Condition} (hx : x = .hi ∨ x = .hihi)
    (hl : limitOf c x = some l) : clearsDeadband c x v = true ↔ v.toInt < l.toInt - c.deadband.toNat := by
  rcases hx with rfl | rfl <;> simp [clearsDeadband, hl]

theorem clearsDeadband_low (c : PointConfig) (v l : Word32) {x : Condition} (hx : x = .lo ∨ x = .lolo)
    (hl : limitOf c x = some l) : clearsDeadband c x v = true ↔ l.toInt + c.deadband.toNat < v.toInt := by
  rcases hx with rfl | rfl <;> simp [clearsDeadband, hl]

/-! ## The statements -/

/-- Settles O35: the tests are taken in their order, and a value that met tests of both sides would lie above a high limit
and below it (`not_meets_high_and_low`). -/
theorem rawCandidateIsTheFirstTest : Obligations.RawCandidateIsTheFirstTest := by
  intro c v above below
  have habove (l : Option Word32) : above l ↔ atOrAbove v l = true := (atOrAbove_iff v l).symm
  have hbelow (l : Option Word32) : below l ↔ atOrBelow v l = true := (atOrBelow_iff v l).symm
  simp only [habove, hbelow]
  refine ⟨rawCandidate_hihi c v, rawCandidate_hi c v, ?lolo, ?lo, ?normal, ?oneSide⟩
  case lolo =>
    intro hhihi hhi hlolo
    rw [rawCandidate_of_not_high c v hhihi hhi, if_pos hlolo]
  case lo =>
    intro hhihi hhi hlolo hlo
    rw [rawCandidate_of_not_high c v hhihi hhi, if_neg hlolo, if_pos hlo]
  case normal =>
    intro hhihi hhi hlolo hlo
    rw [rawCandidate_of_not_high c v hhihi hhi, if_neg hlolo, if_neg hlo]
  case oneSide =>
    rintro hcheck ⟨hhihi | hhi, hlolo | hlo⟩
    · exact not_meets_high_and_low c hcheck v (.inl rfl) (.inr rfl) hhihi hlolo
    · exact not_meets_high_and_low c hcheck v (.inr rfl) (.inr rfl) hhihi hlo
    · exact not_meets_high_and_low c hcheck v (.inl rfl) (.inl rfl) hhi hlolo
    · exact not_meets_high_and_low c hcheck v (.inr rfl) (.inl rfl) hhi hlo

/-- Settles O36: the test is an order on exact integers (`clearsDeadband_high`, `clearsDeadband_low`), so no signed 32-bit
value passes a threshold at or beyond the end of the range, and the gap of the limit check exceeds the deadband. -/
theorem deadbandHoldsTheCondition : Obligations.DeadbandHoldsTheCondition := by
  intro c v l
  constructor
  case left =>
    intro x hx hl
    have hclears := clearsDeadband_high c v l hx hl
    refine ⟨hclears, fun hend => ?unreachable, fun hcheck hraw => ?otherSide⟩
    case unreachable =>
      have hmin : -2147483648 ≤ v.toInt := BitVec.le_toInt v
      rw [← Bool.not_eq_true, hclears]
      omega
    case otherSide =>
      obtain ⟨a, ha, hmeets⟩ := meets_low_of_rawCandidate c v hraw
      exact hclears.2 (clear_of_high_of_meets_low c hcheck v l ha (limitOf_high c hx) hmeets hl)
  case right =>
    intro x hx hl
    have hclears := clearsDeadband_low c v l hx hl
    refine ⟨hclears, fun hend => ?unreachable, fun hcheck hraw => ?otherSide⟩
    case unreachable =>
      have hmax : v.toInt < 2147483648 := BitVec.toInt_lt
      rw [← Bool.not_eq_true, hclears]
      omega
    case otherSide =>
      obtain ⟨b, hb, hmeets⟩ := meets_high_of_rawCandidate c v hraw
      exact hclears.2 (clear_of_low_of_meets_high c hcheck v l (limitOf_low c hx) hb hmeets hl)

end Sys2Proof.Machine
end

section
/-! SUPPORT. The notices: the tests that make a notice deliverable to a port (R119). -/

namespace Sys2Proof.Machine
namespace State

theorem attached_iff (s : State) (p : Port) : s.attached p = true ↔ (s.port p).session = .attached := by
  rw [attached, beq_iff_eq]

end State

/-! ## The statements -/

/-- Settles O42: a slot's notice is deliverable by four tests (`deliverable_eq_some`), of which the route's
(`route_admits_iff`) and the session's (`attached_iff`) are spelled out here. -/
theorem deliverableNeedsAllFour : Obligations.DeliverableNeedsAllFour := by
  intro s p i n
  rw [State.deliverable_eq_some, State.route_admits_iff, State.attached_iff]

end Sys2Proof.Machine
end

section
/-! SUPPORT. The requests on the action records alone (R136, R140, R141, R142): what each owner does with bytes in and out
of range, in each state of the record it names. -/

namespace Sys2Proof.Machine

/-! ## Operand bytes in range (R136, R189) -/

theorem triggersOf_of_inRange (b : Byte) (hne : b ≠ 0) (hle : b.toNat ≤ 15) : triggersOf b =
    some { lo := b.getLsbD 0, lolo := b.getLsbD 1, hi := b.getLsbD 2, hihi := b.getLsbD 3 } := by
  rw [triggersOf, if_neg (not_or.2 ⟨hne, Nat.not_lt.2 hle⟩)]

theorem budgetOf_of_ne_zero (b : Byte) (hne : b ≠ 0) : budgetOf b = some b.toNat := by
  rw [budgetOf, if_neg hne]

theorem actionFlagsOf_of_inRange (b : Byte) (hle : b.toNat ≤ 7) :
    actionFlagsOf b = some (b.getLsbD 0, b.getLsbD 1, b.getLsbD 2) := by
  rw [actionFlagsOf, if_neg (Nat.not_lt.2 hle)]

/-- A byte sends the low eight bits of its number. -/
theorem byte_mod (n : Nat) : byte (n % 256) = byte n :=
  BitVec.eq_of_toNat_eq (by simp [byte])

theorem actionBytes_eq (r : ActionRec) : actionBytes r = [r.state.code, r.triggers.code, byte r.output.val,
    byte (r.drive.toNat / 256), byte r.drive.toNat, byte r.budget, r.flagsCode, byte r.linkCount] := by
  rw [actionBytes, levelBytes_eq, byte_mod]
  rfl

namespace State

theorem exec_actionCreate (s : State) (p : Port) (t : Tag) (triggers output : Byte) (drive : Word16)
    (budget flags : Byte) : exec (.actionCreate p t triggers output drive budget flags) s =
      .next (s.request p t .actionCreate (ownCreate triggers output drive budget flags)) := rfl

theorem exec_actionRearm (s : State) (p : Port) (t : Tag) (action budget : Byte) :
    exec (.actionRearm p t action budget) s = .next (s.request p t .actionRearm (ownRearm action budget)) := rfl

theorem exec_actionFree (s : State) (p : Port) (t : Tag) (action : Byte) :
    exec (.actionFree p t action) s = .next (s.request p t .actionFree (ownFree action)) := rfl

theorem exec_actionRead (s : State) (p : Port) (t : Tag) (action : Byte) :
    exec (.actionRead p t action) s = .next (s.request p t .actionRead (ownActionRead action)) := rfl

/-! ## A request of the family, once its owner's answer is known -/

/-- A request whose owner replies with no effect. -/
theorem exec_of_reply (k : Kind) {s : State} {p : Port} {t : Tag} {c : Instr} {owner : State → State × Reply}
    {code : ResultCode} {data : List Byte} (hready : s.Ready p t) (hexec : exec c s = .next (s.request p t k owner))
    (howner : owner (s.openTag p t k.code) = (s.openTag p t k.code).reply code data) :
    exec c s = .next (s.answered p t k.code code data) := by
  rw [hexec, request_replied s p t k owner code data hready howner]

/-- A request whose owner answers with an effect that leaves the port's record alone. -/
theorem exec_of_effect (k : Kind) {s : State} (s' : State) {p : Port} {t : Tag} {c : Instr}
    {owner : State → State × Reply} {code : ResultCode} {data : List Byte} (hready : s.Ready p t)
    (hexec : exec c s = .next (s.request p t k owner))
    (howner : owner (s.openTag p t k.code) = (s'.openTag p t k.code, .done code data)) (hport : s'.port p = s.port p) :
    exec c s = .next (s'.answered p t k.code code data) := by
  rw [hexec, request_answered s s' p t k owner code data hready howner hport]

/-! ## The saved values that an action drops (R140, R141) -/

@[simp] theorem openTag_dropSaved (s : State) (p : Port) (t : Tag) (k : Byte) (who : LastWriter → Bool) :
    (s.openTag p t k).dropSaved who = (s.dropSaved who).openTag p t k :=
  openTag_mapOutputs s p t k _

@[simp] theorem dropSaved_port (s : State) (who : LastWriter → Bool) (p : Port) :
    (s.dropSaved who).port p = s.port p :=
  mapOutputs_port s _ p

/-- The action records and the output channels are apart. -/
theorem setAction_dropSaved (s : State) (who : LastWriter → Bool) (a : ActionNo) (r : ActionRec) :
    (s.dropSaved who).setAction a r = (s.setAction a r).dropSaved who := rfl

/-- The channels that an action last drove, for whichever slot, given record by record. -/
theorem withOutputs_dropSaved_isAction (s : State) (a : ActionNo) (r : ActionRec) :
    ((s.setAction a r).withOutputs fun o =>
      if ∃ i, (s.output o).lastWriter = .action a i then { s.output o with saved := none } else s.output o) =
      (s.setAction a r).dropSaved (LastWriter.isAction a) :=
  dropSaved_eq _ _ _ fun o => by simp only [setAction_output, isAction_iff]

/-! ## ACTION.CREATE (R136) -/

@[simp] theorem openTag_lowestFreeAction (s : State) (p : Port) (t : Tag) (k : Byte) :
    (s.openTag p t k).lowestFreeAction = s.lowestFreeAction := by
  simp only [lowestFreeAction, openTag_action]

/-- The first test of R136: each operand is checked before a record is looked for. -/
theorem ownCreate_badArgument (s : State) (m o : Byte) (d : Word16) (b f : Byte)
    (h : m = 0 ∨ 15 < m.toNat ∨ 4 ≤ o.toNat ∨ 4095 < d.toNat ∨ b = 0 ∨ 7 < f.toNat) :
    ownCreate m o d b f s = s.reply .badArgument := by
  rw [← or_assoc, ← triggersOf_eq_none, ← outputOf_eq_none, ← levelOf_eq_none, ← budgetOf_eq_none,
    ← actionFlagsOf_eq_none] at h
  unfold ownCreate
  split
  next hts ho hd hn hfl => simp [hts, ho, hd, hn, hfl] at h
  next => rfl

section InRange

variable (s : State) (m b f : Byte) (o : OutputNo) (d : Level) (hm : m ≠ 0) (hm15 : m.toNat ≤ 15) (hb : b ≠ 0)
  (hf : f.toNat ≤ 7)
include hm hm15 hb hf

/-- The second test of R136. -/
theorem ownCreate_noFreeAction (hfull : s.lowestFreeAction = none) :
    ownCreate m (byte o.val) (d.setWidth 16) b f s = s.reply .noFreeAction := by
  simp only [ownCreate, triggersOf_of_inRange m hm hm15, outputOf_byte, levelOf_setWidth, budgetOf_of_ne_zero b hb,
    actionFlagsOf_of_inRange f hf, hfull]

theorem ownCreate_arms (a : ActionNo) (hfree : s.lowestFreeAction = some a) :
    ownCreate m (byte o.val) (d.setWidth 16) b f s = (s.setAction a {
      state := .armed, output := o, drive := d, budget := b.toNat, linkCount := 0
      triggers := { lo := m.getLsbD 0, lolo := m.getLsbD 1, hi := m.getLsbD 2, hihi := m.getLsbD 3 }
      suppress := f.getLsbD 0, notifySpent := f.getLsbD 1, restore := f.getLsbD 2 }, .done .ok [byte a.val]) := by
  simp only [ownCreate, triggersOf_of_inRange m hm hm15, outputOf_byte, levelOf_setWidth, budgetOf_of_ne_zero b hb,
    actionFlagsOf_of_inRange f hf, hfree]

end InRange

/-! ## ACTION.REARM (R140) -/

theorem ownRearm_badArgument (s : State) (b n : Byte) (h : 16 ≤ b.toNat ∨ n = 0) :
    ownRearm b n s = s.reply .badArgument := by
  rw [← actionOf_eq_none, ← budgetOf_eq_none] at h
  unfold ownRearm
  split
  next ha hn => simp [ha, hn] at h
  next => rfl

theorem ownRearm_notArmed (s : State) (a : ActionNo) (n : Byte) (hn : n ≠ 0) (hstate : (s.action a).state = .free) :
    ownRearm (byte a.val) n s = s.reply .actionNotArmed := by
  simp only [ownRearm, actionOf_byte, budgetOf_of_ne_zero n hn, if_pos hstate]

theorem ownRearm_arms (s : State) (a : ActionNo) (n : Byte) (hn : n ≠ 0) (hstate : (s.action a).state ≠ .free) :
    ownRearm (byte a.val) n s =
      ((s.setAction a { s.action a with state := .armed, budget := n.toNat }).dropSaved (LastWriter.isAction a),
        .done .ok []) := by
  simp only [ownRearm, actionOf_byte, budgetOf_of_ne_zero n hn, if_neg hstate]

/-! ## ACTION.FREE (R141) -/

theorem ownFree_badArgument (s : State) (b : Byte) (h : 16 ≤ b.toNat) : ownFree b s = s.reply .badArgument := by
  simp only [ownFree, (actionOf_eq_none b).2 h]

theorem ownFree_ofFree (s : State) (a : ActionNo) (hstate : (s.action a).state = .free) :
    ownFree (byte a.val) s = s.reply .ok := by
  simp only [ownFree, actionOf_byte, if_pos hstate]

theorem ownFree_inUse (s : State) (a : ActionNo) (hstate : (s.action a).state = .armed)
    (hlinks : (s.action a).linkCount ≠ 0) : ownFree (byte a.val) s = s.reply .inUse := by
  have hlinked : (s.action a).state = .armed ∧ 0 < (s.action a).linkCount := ⟨hstate, Nat.pos_of_ne_zero hlinks⟩
  simp only [ownFree, actionOf_byte, if_neg (show (s.action a).state ≠ .free by simp [hstate]), if_pos hlinked]

/-- An action that no point is linked to, or that is SPENT, is freed. -/
theorem ownFree_frees (s : State) (a : ActionNo)
    (h : (s.action a).state = .spent ∨ ((s.action a).state = .armed ∧ (s.action a).linkCount = 0)) :
    ownFree (byte a.val) s =
      ((s.setAction a ActionRec.reset).dropSaved (LastWriter.isAction a), .done .ok []) := by
  have hstate : (s.action a).state ≠ .free := by
    rcases h with hspent | ⟨harmed, -⟩
    · simp [hspent]
    · simp [harmed]
  have hunlinked : ¬((s.action a).state = .armed ∧ 0 < (s.action a).linkCount) := by
    rcases h with hspent | ⟨-, hlinks⟩
    · simp [hspent]
    · simp [hlinks]
  simp only [ownFree, actionOf_byte, if_neg hstate, if_neg hunlinked, setAction_dropSaved]

/-! ## ACTION.READ (R142) -/

theorem ownActionRead_badArgument (s : State) (b : Byte) (h : 16 ≤ b.toNat) :
    ownActionRead b s = s.reply .badArgument := by
  simp only [ownActionRead, (actionOf_eq_none b).2 h]

theorem ownActionRead_snapshot (s : State) (a : ActionNo) :
    ownActionRead (byte a.val) s = s.reply .ok (actionBytes (s.action a)) := by
  simp only [ownActionRead, actionOf_byte]

end State

/-! ## The statement -/

/-- Settles O47: each owner's equation for the operands and the state of the record it names, answered at acceptance; the
saved values dropped are those of the channels whose last writer is the action (`withOutputs_dropSaved_isAction`). -/
theorem actionRecordsAreMadeAndFreed : Obligations.ActionRecordsAreMadeAndFreed := by
  constructor
  case left =>
    intro s p t hready
    refine ⟨?createBad, fun m b f o d hm hm15 hb hf => ⟨?createFull, ?create⟩⟩
    case createBad =>
      intro m o b f d hrange
      exact State.exec_of_reply .actionCreate hready (State.exec_actionCreate s p t m o d b f)
        (State.ownCreate_badArgument _ m o d b f hrange)
    case createFull =>
      intro hfull
      refine State.exec_of_reply .actionCreate hready (State.exec_actionCreate s p t m _ _ b f)
        (State.ownCreate_noFreeAction _ m b f o d hm hm15 hb hf ?_)
      rwa [State.openTag_lowestFreeAction, State.lowestFreeAction_eq_none]
    case create =>
      intro a hfree hlowest
      refine State.exec_of_effect .actionCreate _ hready (State.exec_actionCreate s p t m _ _ b f) ?_
        (State.setAction_port ..)
      rw [State.ownCreate_arms _ m b f o d hm hm15 hb hf a
        (by rw [State.openTag_lowestFreeAction, State.lowestFreeAction_eq s a hfree hlowest]), State.openTag_setAction]
  case right =>
    intro s p t hready dropped
    have hdropped (a : ActionNo) (r : ActionRec) :
        dropped a r = (s.setAction a r).dropSaved (LastWriter.isAction a) :=
      State.withOutputs_dropSaved_isAction s a r
    have hport (a : ActionNo) (r : ActionRec) : (dropped a r).port p = s.port p := by
      rw [hdropped, State.dropSaved_port, State.setAction_port]
    refine ⟨?rearmBad, fun b hb => ⟨?freeBad, ?readBad⟩, fun a n hn => ⟨?notArmed, ?rearm⟩,
      fun a => ⟨?alreadyFree, ?inUse, ?free, ?read⟩⟩
    case rearmBad =>
      intro b n hrange
      exact State.exec_of_reply .actionRearm hready (State.exec_actionRearm s p t b n)
        (State.ownRearm_badArgument _ b n hrange)
    case freeBad =>
      exact State.exec_of_reply .actionFree hready (State.exec_actionFree s p t b) (State.ownFree_badArgument _ b hb)
    case readBad =>
      exact State.exec_of_reply .actionRead hready (State.exec_actionRead s p t b)
        (State.ownActionRead_badArgument _ b hb)
    case notArmed =>
      intro hstate
      exact State.exec_of_reply .actionRearm hready (State.exec_actionRearm s p t _ n)
        (State.ownRearm_notArmed _ a n hn (by rwa [State.openTag_action]))
    case rearm =>
      intro hstate
      refine State.exec_of_effect .actionRearm _ hready (State.exec_actionRearm s p t _ n) ?_ (hport a _)
      rw [State.ownRearm_arms _ a n hn (by rwa [State.openTag_action]), hdropped, State.openTag_action,
        State.openTag_setAction, State.openTag_dropSaved]
    case alreadyFree =>
      intro hstate
      exact State.exec_of_reply .actionFree hready (State.exec_actionFree s p t _)
        (State.ownFree_ofFree _ a (by rwa [State.openTag_action]))
    case inUse =>
      intro hstate hlinks
      exact State.exec_of_reply .actionFree hready (State.exec_actionFree s p t _)
        (State.ownFree_inUse _ a (by rwa [State.openTag_action]) (by rwa [State.openTag_action]))
    case free =>
      intro hunlinked
      refine State.exec_of_effect .actionFree _ hready (State.exec_actionFree s p t _) ?_ (hport a ActionRec.reset)
      rw [State.ownFree_frees _ a (by rwa [State.openTag_action]), hdropped, State.openTag_setAction,
        State.openTag_dropSaved]
      rfl
    case read =>
      refine State.exec_of_reply .actionRead hready (State.exec_actionRead s p t _) ?_
      rw [State.ownActionRead_snapshot, State.openTag_action, actionBytes_eq]
      rfl

end Sys2Proof.Machine
end

section
/-! SUPPORT. The requests on an output channel (R153, R155, R156, R158, R159): what each owner does with bytes in and
out of range, on a channel that the other port has pinned and on one that it has not. -/

namespace Sys2Proof.Machine
namespace State

theorem exec_outputWrite (s : State) (p : Port) (t : Tag) (channel : Byte) (value : Word16) :
    exec (.outputWrite p t channel value) s = .next (s.request p t .outputWrite (ownWrite p channel value)) := rfl

theorem exec_outputPin (s : State) (p : Port) (t : Tag) (channel : Byte) :
    exec (.outputPin p t channel) s = .next (s.request p t .outputPin (ownPin p channel)) := rfl

theorem exec_outputUnpin (s : State) (p : Port) (t : Tag) (channel : Byte) :
    exec (.outputUnpin p t channel) s = .next (s.request p t .outputUnpin (ownUnpin p channel)) := rfl

theorem exec_outputFallback (s : State) (p : Port) (t : Tag) (channel presence : Byte) (value : Word16) :
    exec (.outputFallback p t channel presence value) s =
      .next (s.request p t .outputFallback (ownFallback p channel presence value)) := rfl

theorem exec_outputRead (s : State) (p : Port) (t : Tag) (channel : Byte) :
    exec (.outputRead p t channel) s = .next (s.request p t .outputRead (ownOutputRead channel)) := rfl

theorem pinnedByOther_iff (s : State) (p : Port) (o : OutputNo) :
    s.pinnedByOther p o = true ↔ (s.output o).pin = some p.other := by
  simp [pinnedByOther]

/-- AOUTn follows the value of its channel's record (R151). -/
theorem aout_setOutput_same (s : State) (o : OutputNo) (r : OutputChannel) : (s.setOutput o r).aout o = r.value := by
  simp [aout]

/-! ## OUTPUT.WRITE (R153) -/

theorem ownWrite_badArgument (s : State) (p : Port) (ch : Byte) (v : Word16) (h : 4 ≤ ch.toNat ∨ 4095 < v.toNat) :
    ownWrite p ch v s = s.reply .badArgument := by
  rw [← outputOf_eq_none, ← levelOf_eq_none] at h
  unfold ownWrite
  split
  next ho hv => simp [ho, hv] at h
  next => rfl

theorem ownWrite_pinned (s : State) (p : Port) (o : OutputNo) (v : Level) (hpin : (s.output o).pin = some p.other) :
    ownWrite p (byte o.val) (v.setWidth 16) s = s.reply .pinned := by
  simp only [ownWrite, outputOf_byte, levelOf_setWidth, if_pos ((pinnedByOther_iff s p o).2 hpin)]

theorem ownWrite_writes (s : State) (p : Port) (o : OutputNo) (v : Level) (hpin : (s.output o).pin ≠ some p.other) :
    ownWrite p (byte o.val) (v.setWidth 16) s =
      (s.setOutput o { s.output o with value := v, lastWriter := .port p, saved := none }, .done .ok []) := by
  simp only [ownWrite, outputOf_byte, levelOf_setWidth, if_neg (mt (pinnedByOther_iff s p o).1 hpin)]

/-! ## OUTPUT.PIN and OUTPUT.UNPIN (R155, R156) -/

theorem ownPin_badArgument (s : State) (p : Port) (ch : Byte) (h : 4 ≤ ch.toNat) :
    ownPin p ch s = s.reply .badArgument := by
  simp only [ownPin, (outputOf_eq_none ch).2 h]

theorem ownPin_pinned (s : State) (p : Port) (o : OutputNo) (hpin : (s.output o).pin = some p.other) :
    ownPin p (byte o.val) s = s.reply .pinned := by
  simp only [ownPin, outputOf_byte, if_pos ((pinnedByOther_iff s p o).2 hpin)]

theorem ownPin_pins (s : State) (p : Port) (o : OutputNo) (hpin : (s.output o).pin ≠ some p.other) :
    ownPin p (byte o.val) s =
      (s.setOutput o { s.output o with pin := some p }, .done .ok (pinBytes (s.output o))) := by
  simp only [ownPin, outputOf_byte, if_neg (mt (pinnedByOther_iff s p o).1 hpin)]

theorem ownUnpin_badArgument (s : State) (p : Port) (ch : Byte) (h : 4 ≤ ch.toNat) :
    ownUnpin p ch s = s.reply .badArgument := by
  simp only [ownUnpin, (outputOf_eq_none ch).2 h]

theorem ownUnpin_unpins (s : State) (p : Port) (o : OutputNo) (hpin : (s.output o).pin = some p) :
    ownUnpin p (byte o.val) s = (s.setOutput o { s.output o with pin := none }, .done .ok []) := by
  simp only [ownUnpin, outputOf_byte, if_pos hpin]

theorem ownUnpin_notPinned (s : State) (p : Port) (o : OutputNo) (hpin : (s.output o).pin ≠ some p) :
    ownUnpin p (byte o.val) s = s.reply .notPinned := by
  simp only [ownUnpin, outputOf_byte, if_neg hpin]

/-! ## OUTPUT.FALLBACK (R158) -/

theorem fallbackOf_zero (w : Word16) : fallbackOf 0 w = some none := rfl

theorem fallbackOf_one (w : Word16) : fallbackOf 1 w = (levelOf w).map some := rfl

/-- The value is range-checked only where the presence byte is 1. -/
theorem fallbackOf_eq_none (pr : Byte) (v : Word16) (h : 1 < pr.toNat ∨ (pr = 1 ∧ 4095 < v.toNat)) :
    fallbackOf pr v = none := by
  rcases h with hpresence | ⟨rfl, hlevel⟩
  · simp only [fallbackOf, (yesNoOf_eq_none pr).2 hpresence]
  · rw [fallbackOf_one, (levelOf_eq_none v).2 hlevel, Option.map_none]

theorem ownFallback_badArgument (s : State) (p : Port) (ch pr : Byte) (v : Word16)
    (h : 4 ≤ ch.toNat ∨ 1 < pr.toNat ∨ (pr = 1 ∧ 4095 < v.toNat)) :
    ownFallback p ch pr v s = s.reply .badArgument := by
  have hnone : outputOf ch = none ∨ fallbackOf pr v = none :=
    h.imp (outputOf_eq_none ch).2 (fallbackOf_eq_none pr v)
  unfold ownFallback
  split
  next ho hf => simp [ho, hf] at hnone
  next => rfl

section InRange

variable (s : State) (p : Port) (o : OutputNo) (pr : Byte) (v : Word16) (f : Option Level)
  (hf : fallbackOf pr v = some f)
include hf

theorem ownFallback_pinned (hpin : (s.output o).pin = some p.other) :
    ownFallback p (byte o.val) pr v s = s.reply .pinned := by
  simp only [ownFallback, outputOf_byte, hf, if_pos ((pinnedByOther_iff s p o).2 hpin)]

theorem ownFallback_sets (hpin : (s.output o).pin ≠ some p.other) :
    ownFallback p (byte o.val) pr v s = (s.setOutput o { s.output o with fallback := f }, .done .ok []) := by
  simp only [ownFallback, outputOf_byte, hf, if_neg (mt (pinnedByOther_iff s p o).1 hpin)]

end InRange

/-! ## OUTPUT.READ (R159) -/

theorem ownOutputRead_badArgument (s : State) (ch : Byte) (h : 4 ≤ ch.toNat) :
    ownOutputRead ch s = s.reply .badArgument := by
  simp only [ownOutputRead, (outputOf_eq_none ch).2 h]

theorem ownOutputRead_snapshot (s : State) (o : OutputNo) :
    ownOutputRead (byte o.val) s = s.reply .ok (outputBytes (s.output o)) := by
  simp only [ownOutputRead, outputOf_byte]

end State

/-! ## Byte layouts (R187) -/

theorem levelBytes_eq_byte (v : Level) : levelBytes v = [byte (v.toNat / 256), byte v.toNat] := by
  rw [levelBytes_eq, byte_mod]

theorem presence_levelBytes_eq (v : Option Level) : yesNoByte v.isSome :: levelBytes (v.getD 0) =
    match v with
    | none => ([0, 0, 0] : List Byte)
    | some l => [1, byte (l.toNat / 256), byte l.toNat] := by
  cases v with
  | none => rfl
  | some l => rw [Option.getD_some, levelBytes_eq_byte]; rfl

theorem portCode_eq (p : Option Port) : portCode p =
    match p with
    | none => (0 : Byte)
    | some .H => 1
    | some .L => 2 := by
  rcases p with _ | _ | _ <;> rfl

theorem outputBytes_eq (r : OutputChannel) : outputBytes r =
    [byte (r.value.toNat / 256), byte r.value.toNat] ++ r.lastWriter.bytes ++
      (match r.saved with
        | none => ([0, 0, 0] : List Byte)
        | some l => [1, byte (l.toNat / 256), byte l.toNat]) ++
      [match r.pin with
        | none => (0 : Byte)
        | some .H => 1
        | some .L => 2] ++
      (match r.fallback with
        | none => ([0, 0, 0] : List Byte)
        | some l => [1, byte (l.toNat / 256), byte l.toNat]) := by
  rw [← presence_levelBytes_eq r.saved, ← presence_levelBytes_eq r.fallback, ← portCode_eq r.pin,
    ← levelBytes_eq_byte r.value]
  simp only [outputBytes, List.append_assoc, List.cons_append, List.nil_append]

/-! ## The statements -/

/-- Settles O50: each owner's equation for a channel byte in and out of range and for the port that holds the pin,
answered at acceptance. -/
theorem writeAndPinTakeTheChannel : Obligations.WriteAndPinTakeTheChannel := by
  constructor
  case left =>
    intro s p t hready
    refine ⟨?writeBad, ?writePinned, fun o v hpin => ⟨?write, State.aout_setOutput_same ..⟩⟩
    case writeBad =>
      intro ch v hrange
      exact State.exec_of_reply .outputWrite hready (State.exec_outputWrite s p t ch v)
        (State.ownWrite_badArgument _ p ch v hrange)
    case writePinned =>
      intro o v hpin
      exact State.exec_of_reply .outputWrite hready (State.exec_outputWrite s p t _ _)
        (State.ownWrite_pinned _ p o v (by rwa [State.openTag_output]))
    case write =>
      refine State.exec_of_effect .outputWrite _ hready (State.exec_outputWrite s p t _ _) ?_ (State.setOutput_port ..)
      rw [State.ownWrite_writes _ p o v (by rwa [State.openTag_output]), State.openTag_output, State.openTag_setOutput]
  case right =>
    intro s p t hready
    refine ⟨fun ch hrange => ⟨?pinBad, ?unpinBad⟩, fun o => ⟨?pinPinned, ?pin, ?unpin, ?notPinned⟩⟩
    case pinBad =>
      exact State.exec_of_reply .outputPin hready (State.exec_outputPin s p t ch)
        (State.ownPin_badArgument _ p ch hrange)
    case unpinBad =>
      exact State.exec_of_reply .outputUnpin hready (State.exec_outputUnpin s p t ch)
        (State.ownUnpin_badArgument _ p ch hrange)
    case pinPinned =>
      intro hpin
      exact State.exec_of_reply .outputPin hready (State.exec_outputPin s p t _)
        (State.ownPin_pinned _ p o (by rwa [State.openTag_output]))
    case pin =>
      intro hpin
      refine State.exec_of_effect .outputPin _ hready (State.exec_outputPin s p t _) ?_ (State.setOutput_port ..)
      rw [State.ownPin_pins _ p o (by rwa [State.openTag_output]), State.openTag_output, State.openTag_setOutput,
        pinBytes, levelBytes_eq]
    case unpin =>
      intro hpin
      refine State.exec_of_effect .outputUnpin _ hready (State.exec_outputUnpin s p t _) ?_ (State.setOutput_port ..)
      rw [State.ownUnpin_unpins _ p o (by rwa [State.openTag_output]), State.openTag_output, State.openTag_setOutput]
    case notPinned =>
      intro hpin
      exact State.exec_of_reply .outputUnpin hready (State.exec_outputUnpin s p t _)
        (State.ownUnpin_notPinned _ p o (by rwa [State.openTag_output]))

section Fallback

variable {s : State} {p : Port} {t : Tag} (hready : s.Ready p t) (o : OutputNo) {pr : Byte} {v : Word16}
  {f : Option Level} (hf : State.fallbackOf pr v = some f)
include hready hf

theorem exec_outputFallback_pinned (hpin : (s.output o).pin = some p.other) :
    exec (.outputFallback p t (byte o.val) pr v) s = .next (s.answered p t 0x73 .pinned []) :=
  State.exec_of_reply .outputFallback hready (State.exec_outputFallback s p t _ pr v)
    (State.ownFallback_pinned _ p o pr v f hf (by rwa [State.openTag_output]))

theorem exec_outputFallback_sets (hpin : (s.output o).pin ≠ some p.other) :
    exec (.outputFallback p t (byte o.val) pr v) s =
      .next ((s.setOutput o { s.output o with fallback := f }).answered p t 0x73 .ok []) := by
  refine State.exec_of_effect .outputFallback _ hready (State.exec_outputFallback s p t _ pr v) ?_
    (State.setOutput_port ..)
  rw [State.ownFallback_sets _ p o pr v f hf (by rwa [State.openTag_output]), State.openTag_output,
    State.openTag_setOutput]

end Fallback

/-- Settles O51: a fallback present and one absent are the two values of `fallbackOf`, with one argument for both; the
twelve bytes of OUTPUT.READ are laid out field by field (`outputBytes_eq`). -/
theorem fallbackAndReadOfOutputs : Obligations.FallbackAndReadOfOutputs := by
  intro s p t hready
  have hpresent (v : Level) : State.fallbackOf 1 (v.setWidth 16) = some (some v) := by
    rw [State.fallbackOf_one, levelOf_setWidth, Option.map_some]
  refine ⟨?fallbackBad, ?readBad, fun o v w => ⟨fun hpin => ?pinned, fun hpin => ?sets, ?read⟩⟩
  case fallbackBad =>
    intro ch pr v hrange
    exact State.exec_of_reply .outputFallback hready (State.exec_outputFallback s p t ch pr v)
      (State.ownFallback_badArgument _ p ch pr v hrange)
  case readBad =>
    intro ch hrange
    exact State.exec_of_reply .outputRead hready (State.exec_outputRead s p t ch)
      (State.ownOutputRead_badArgument _ ch hrange)
  case pinned =>
    exact ⟨exec_outputFallback_pinned hready o (hpresent v) hpin,
      exec_outputFallback_pinned hready o (State.fallbackOf_zero w) hpin⟩
  case sets =>
    exact ⟨exec_outputFallback_sets hready o (hpresent v) hpin,
      exec_outputFallback_sets hready o (State.fallbackOf_zero w) hpin⟩
  case read =>
    refine State.exec_of_reply .outputRead hready (State.exec_outputRead s p t _) ?_
    rw [State.ownOutputRead_snapshot, State.openTag_output]
    exact congrArg (State.reply _ .ok ·) (outputBytes_eq (s.output o))

end Sys2Proof.Machine
end

section
/-! SUPPORT. The requests that open, set and show a port's session (R174, R175, R176): what each owner does with bytes in
and out of range, and the open tags that stand when the waits have been served. -/

namespace Sys2Proof.Machine
namespace State

theorem exec_portAttach (s : State) (p : Port) (t : Tag) (timeout threshold : Byte) :
    exec (.portAttach p t timeout threshold) s =
      .next (s.request p t .portAttach (ownAttach p timeout threshold)) := rfl

theorem exec_portSet (s : State) (p : Port) (t : Tag) (timeout threshold : Byte) :
    exec (.portSet p t timeout threshold) s = .next (s.request p t .portSet (ownSet p timeout threshold)) := rfl

theorem exec_portStatus (s : State) (p : Port) (t : Tag) (clear : Byte) :
    exec (.portStatus p t clear) s = .next (s.request p t .portStatus (ownStatus p clear)) := rfl

/-! ## A request whose owner writes its own port's record -/

/-- The session check passes for PORT.ATTACH and on an ATTACHED port (R169). The owner may write the record of the port:
the answer is the last of the queue as long as the request's tag is still the only one of its number. -/
theorem exec_of_answer (k : Kind) {s : State} (s' : State) {p : Port} {t : Tag} {c : Instr}
    {owner : State → State × Reply} {code : ResultCode} {data : List Byte} (hadmits : s.Admits p t)
    (hsession : k = .portAttach ∨ (s.port p).session = .attached) (hexec : exec c s = .next (s.request p t k owner))
    (howner : owner (s.openTag p t k.code) = (s'.openTag p t k.code, .done code data))
    (hfresh : ∀ e ∈ (s'.port p).openTags, e.tag ≠ t) : exec c s = .next (s'.answered p t k.code code data) := by
  have hpasses : ¬((k != .portAttach) = true ∧ s.attached p = false) := by
    rcases hsession with rfl | hattached
    · simp
    · simp [attached, hattached]
  rw [hexec, request, submit_of_admits _ _ _ _ _ _ hadmits, accept, if_neg hpasses, howner, giveReply,
    answerTag_openTag _ _ _ _ _ _ hfresh]
  rfl

/-! ## The open tags that the service of the waits leaves (R125, R177) -/

/-- An answer moves a tag from WAITING to ANSWERED; it opens and closes none. -/
theorem answerTag_openTags_tag (s : State) (p q : Port) (t : Tag) (code : ResultCode) (data : List Byte) :
    ((s.answerTag q t code data).port p).openTags.map OpenTag.tag = (s.port p).openTags.map OpenTag.tag := by
  simp only [answerTag]
  cases s.waitingTag q t with
  | none => rfl
  | some e =>
    simp only [port_setPort]
    split
    next hq =>
      subst hq
      rw [List.map_map]
      refine List.map_congr_left fun x _ => ?_
      simp only [Function.comp_apply]
      split <;> rfl
    next => rfl

theorem serveWait_openTags_tag (s : State) (w : WaitRec) (p : Port) :
    ((s.serveWait w).port p).openTags.map OpenTag.tag = (s.port p).openTags.map OpenTag.tag := by
  simp only [serveWait, fetch]
  cases s.best w.port with
  | none => rfl
  | some x =>
    simp only [Option.map_some, answerTag_openTags_tag]
    simp only [dropWait, setWaits_port, setNotice_port]

theorem serveWaits_openTags_tag (s : State) (p : Port) :
    (s.serveWaits.port p).openTags.map OpenTag.tag = (s.port p).openTags.map OpenTag.tag := by
  have hfold (ws : List WaitRec) (u : State) :
      ((ws.foldl serveWait u).port p).openTags.map OpenTag.tag = (u.port p).openTags.map OpenTag.tag := by
    induction ws generalizing u with
    | nil => rfl
    | cons w ws ih => rw [List.foldl_cons, ih, serveWait_openTags_tag]
  exact hfold s.waits s

/-- A tag that is not open before the waits are served is not open after. -/
theorem serveWaits_tag_ne (s : State) (p : Port) (t : Tag) (h : ∀ e ∈ (s.port p).openTags, e.tag ≠ t) :
    ∀ e ∈ (s.serveWaits.port p).openTags, e.tag ≠ t := by
  intro e he htag
  have hopen : t ∈ (s.port p).openTags.map OpenTag.tag := by
    rw [← serveWaits_openTags_tag]
    exact List.mem_map.2 ⟨e, he, htag⟩
  obtain ⟨e', he', htag'⟩ := List.mem_map.1 hopen
  exact h e' he' htag'

/-! ## PORT.ATTACH and PORT.SET (R174, R175) -/

theorem timeoutOf_eq (b : Byte) : timeoutOf b = if b = 0 then 50 else b.toNat := rfl

theorem ownAttach_badArgument (s : State) (p : Port) (timeout threshold : Byte) (hlow : 8 ≤ threshold.toNat)
    (hdefault : threshold ≠ 0xFF) : ownAttach p timeout threshold s = s.reply .badArgument := by
  simp only [ownAttach, (thresholdOf_eq_none threshold).2 ⟨hlow, hdefault⟩]

theorem ownSet_badArgument (s : State) (p : Port) (timeout threshold : Byte) (hlow : 8 ≤ threshold.toNat)
    (hdefault : threshold ≠ 0xFF) : ownSet p timeout threshold s = s.reply .badArgument := by
  simp only [ownSet, (thresholdOf_eq_none threshold).2 ⟨hlow, hdefault⟩]

section InRange

variable (s : State) (p : Port) (t : Tag) (k timeout threshold : Byte)
  (hrange : threshold.toNat < 8 ∨ threshold = 0xFF)
include hrange

theorem ownAttach_alreadyAttached (hsession : (s.port p).session = .attached) :
    ownAttach p timeout threshold s = s.reply .alreadyAttached := by
  have hattached : s.attached p = true := by simp [attached, hsession]
  simp only [ownAttach, thresholdOf_eq threshold hrange, if_pos hattached]

theorem ownAttach_opens (hsession : (s.port p).session = .detached) :
    ownAttach p timeout threshold (s.openTag p t k) =
      ((s.setPort p { s.port p with
        session := .attached
        timeoutSteps := if timeout = 0 then 50 else timeout.toNat
        threshold := Fin.ofNat 8 (if threshold = 0xFF then 0 else threshold.toNat) }).openTag p t k,
        .done .ok []) := by
  have hdetached : ¬(s.openTag p t k).attached p = true := by simp [attached, hsession]
  simp only [ownAttach, thresholdOf_eq threshold hrange, if_neg hdetached, timeoutOf_eq]
  simp only [openTag, port_setPort_self, setPort_setPort]

/-- The waits are served under the new threshold, and the request itself is none of them (R120, R175). -/
theorem ownSet_sets (hwaits : ∀ w ∈ s.waits, (w.port, w.tag) ≠ (p, t)) :
    ownSet p timeout threshold (s.openTag p t k) =
      ((s.setPort p { s.port p with
        timeoutSteps := if timeout = 0 then 50 else timeout.toNat
        threshold := Fin.ofNat 8 (if threshold = 0xFF then 0 else threshold.toNat) }).serveWaits.openTag p t k,
        .done .ok []) := by
  rw [← serveWaits_openTag _ _ _ _ (by rwa [setPort_waits])]
  simp only [ownSet, thresholdOf_eq threshold hrange, timeoutOf_eq, openTag, port_setPort_self, setPort_setPort]

end InRange

/-! ## PORT.STATUS (R176) -/

theorem ownStatus_badArgument (s : State) (p : Port) (clear : Byte) (h : 2 ≤ clear.toNat) :
    ownStatus p clear s = s.reply .badArgument := by
  simp only [ownStatus, (yesNoOf_eq_none clear).2 h]

/-- The request's own tag is among the open ones that it shows. -/
theorem portBytes_openTag (s : State) (p : Port) (t : Tag) (k : Byte) (hsession : (s.port p).session = .attached) :
    portBytes ((s.openTag p t k).port p) =
      [1, byte (s.port p).timeoutSteps, byte (s.port p).threshold.val, byte ((s.port p).openTags.length + 1),
        byte (s.port p).queue.length, byte (s.port p).refusals.length, byte (s.port p).frameErrors,
        byte (s.port p).dropped] := by
  simp only [portBytes, openTag, port_setPort_self, hsession, Session.code, List.length_append, List.length_singleton]

/-- The bytes answered are those of the record before the clear (R176). -/
theorem ownStatus_snapshot (s : State) (p : Port) (t : Tag) (k clear : Byte) (hclear : clear.toNat ≤ 1) :
    ownStatus p clear (s.openTag p t k) =
      ((s.setPort p { s.port p with
        frameErrors := if clear = 1 then 0 else (s.port p).frameErrors
        dropped := if clear = 1 then 0 else (s.port p).dropped }).openTag p t k,
        .done .ok (portBytes ((s.openTag p t k).port p))) := by
  have hvalues : clear = 0 ∨ clear = 1 := by bv_omega
  rcases hvalues with rfl | rfl
  · have hsame : s.setPort p { s.port p with
        frameErrors := (s.port p).frameErrors, dropped := (s.port p).dropped } = s := setPort_port_self s p
    simp [ownStatus, reply, hsame]
  · simp [ownStatus, openTag]

end State

/-! ## The statement -/

/-- Settles O11: the range of the threshold, then the session, for PORT.ATTACH; for PORT.SET the service of the waits
beside the request's open tag (`ownSet_sets`, `serveWaits_tag_ne`); for PORT.STATUS the record before the clear
(`ownStatus_snapshot`). -/
theorem attachSetAndStatusOfThePort : Obligations.AttachSetAndStatusOfThePort := by
  constructor
  case left =>
    intro s p t timeout threshold hadmits
    have hexec := State.exec_portAttach s p t timeout threshold
    have ⟨_, hfresh, _⟩ := hadmits
    refine ⟨?badArgument, ?alreadyAttached, ?opens⟩
    case badArgument =>
      intro hlow hdefault
      exact State.exec_of_answer .portAttach s hadmits (.inl rfl) hexec
        (State.ownAttach_badArgument _ p timeout threshold hlow hdefault) hfresh
    case alreadyAttached =>
      intro hrange hsession
      exact State.exec_of_answer .portAttach s hadmits (.inl rfl) hexec
        (State.ownAttach_alreadyAttached _ p timeout threshold hrange (by rwa [State.openTag_session])) hfresh
    case opens =>
      intro hrange hsession
      exact State.exec_of_answer .portAttach _ hadmits (.inl rfl) hexec
        (State.ownAttach_opens s p t _ timeout threshold hrange hsession) (by rwa [State.port_setPort_self])
  case right =>
    intro s p t timeout threshold clear hready
    have ⟨hadmits, hsession⟩ := hready
    have ⟨_, hfresh, _⟩ := hadmits
    refine ⟨?setBad, ?sets, ?statusBad, ?status⟩
    case setBad =>
      intro hlow hdefault
      exact State.exec_of_reply .portSet hready (State.exec_portSet s p t timeout threshold)
        (State.ownSet_badArgument _ p timeout threshold hlow hdefault)
    case sets =>
      intro hrange hwaiting
      exact State.exec_of_answer .portSet _ hadmits (.inr hsession) (State.exec_portSet s p t timeout threshold)
        (State.ownSet_sets s p t _ timeout threshold hrange (State.waits_tag_ne s p t hwaiting hfresh))
        (State.serveWaits_tag_ne _ p t (by rwa [State.port_setPort_self]))
    case statusBad =>
      intro hclear
      exact State.exec_of_reply .portStatus hready (State.exec_portStatus s p t clear)
        (State.ownStatus_badArgument _ p clear hclear)
    case status =>
      intro hclear
      rw [← State.portBytes_openTag s p t (Kind.code .portStatus) hsession]
      exact State.exec_of_answer .portStatus _ hadmits (.inr hsession) (State.exec_portStatus s p t clear)
        (State.ownStatus_snapshot s p t _ clear hclear) (by rwa [State.port_setPort_self])

end Sys2Proof.Machine
end

section
/-! SUPPORT. What a step can do, said once: each request is a frame that its port takes and an owner that answers it, each
other command an event of the part, of a reset line or of a port; `Happens` lists them, and the laws are kept by steps
because they are kept by each of these. -/

namespace Sys2Proof.Machine

/-! ## The owners of the requests (R169, R187) -/

/-- The meaning that answers a request of a port under a tag, and whether the request needs a session. -/
inductive IsOwner (p : Port) (t : Tag) : Bool → (State → State × Reply) → Prop
  | badRequest : IsOwner p t false fun s => s.reply .badRequest
  | attach (timeout threshold : Byte) : IsOwner p t false (State.ownAttach p timeout threshold)
  | set (timeout threshold : Byte) : IsOwner p t true (State.ownSet p timeout threshold)
  | status (clear : Byte) : IsOwner p t true (State.ownStatus p clear)
  | cancel (target : Byte) : IsOwner p t true (State.ownCancel p t target)
  | detach : IsOwner p t true (State.ownDetach p t)
  | define (b : ConfigBlock) : IsOwner p t true (State.ownDefine b)
  | find (key : Word32) : IsOwner p t true (State.ownFind key)
  | read (slot gen : Byte) : IsOwner p t true (State.ownRead slot gen)
  | summary (start : Byte) : IsOwner p t true (State.ownSummary start)
  | retire (slot gen : Byte) : IsOwner p t true (State.ownRetire p slot gen)
  | sample (slot gen : Byte) : IsOwner p t true (State.ownSample p t slot gen)
  | editOpen (slot gen : Byte) : IsOwner p t true (State.ownOpen p slot gen)
  | editSet (slot gen field presence : Byte) (area : BitVec 64) :
      IsOwner p t true (State.ownEditSet p slot gen field presence area)
  | editCommit (slot gen : Byte) : IsOwner p t true (State.ownCommit p slot gen)
  | editDrop (slot gen : Byte) : IsOwner p t true (State.ownDrop p slot gen)
  | classConfig (cls source : Byte) (period : Word16) : IsOwner p t true (State.ownConfig cls source period)
  | classStart (cls : Byte) : IsOwner p t true (State.ownStart cls)
  | classStop (cls : Byte) : IsOwner p t true (State.ownStop cls)
  | classTrigger (cls : Byte) : IsOwner p t true (State.ownTrigger cls)
  | classStatus (cls clear : Byte) : IsOwner p t true (State.ownClassStatus cls clear)
  | listInsert (cls slot gen position : Byte) : IsOwner p t true (State.ownInsert cls slot gen position)
  | listRemove (cls slot gen : Byte) : IsOwner p t true (State.ownRemove cls slot gen)
  | listRead (cls : Byte) : IsOwner p t true (State.ownListRead cls)
  | convert (channel gain : Byte) : IsOwner p t true (State.ownConvert p t channel gain)
  | fetch : IsOwner p t true (State.ownFetch p)
  | wait (timeout : Word16) : IsOwner p t true (State.ownWait p t timeout)
  | ack (slot gen : Byte) : IsOwner p t true (State.ownAck p slot gen)
  | create (triggers output : Byte) (drive : Word16) (budget flags : Byte) :
      IsOwner p t true (State.ownCreate triggers output drive budget flags)
  | link (action slot gen : Byte) : IsOwner p t true (State.ownLink p action slot gen)
  | unlink (slot gen : Byte) : IsOwner p t true (State.ownUnlink p slot gen)
  | rearm (action budget : Byte) : IsOwner p t true (State.ownRearm action budget)
  | free (action : Byte) : IsOwner p t true (State.ownFree action)
  | actionRead (action : Byte) : IsOwner p t true (State.ownActionRead action)
  | write (channel : Byte) (value : Word16) : IsOwner p t true (State.ownWrite p channel value)
  | pin (channel : Byte) : IsOwner p t true (State.ownPin p channel)
  | unpin (channel : Byte) : IsOwner p t true (State.ownUnpin p channel)
  | fallback (channel presence : Byte) (value : Word16) : IsOwner p t true (State.ownFallback p channel presence value)
  | outputRead (channel : Byte) : IsOwner p t true (State.ownOutputRead channel)

/-- A command that a frame spells is a request with one owner, by its own row and as the frame it spells. -/
theorem request_of_parts {i : Instr} {p : Port} {t : Tag} {k : Kind} {args : List Byte}
    (h : requestParts i = some (p, t, k, args)) : ∃ own, IsOwner p t (k != .portAttach) own ∧
      ∀ s, exec i s = .next (s.request p t k own) ∧ runRequest i s = .next (s.request p t k own) := by
  cases i <;> cases h <;> exact ⟨_, by constructor, fun s => ⟨rfl, rfl⟩⟩

/-- A request read from its kind and argument bytes has that port, tag and kind. -/
theorem requestParts_requestOf (p : Port) (t : Tag) (k : Kind) (a : List Byte) :
    ∃ args, requestParts (requestOf p t k a) = some (p, t, k, args) := by
  cases k <;> exact ⟨_, rfl⟩

/-! ## What can happen -/

/-- What a port does with a transaction that it takes, once no COLLECT is under way (R164 to R169). -/
inductive Acts (p : Port) (s : State) : State → Prop
  | counts : Acts p s (s.countFrameError p)
  | refuses (t : Tag) (kind : Byte) (code : ResultCode) : Acts p s (s.refuse p t kind code)
  | begins : Acts p s ((s.beginCollect p).endCollect p)
  | notAttached (t : Tag) (kind : Byte) (hfresh : ∀ e ∈ (s.port p).openTags, e.tag ≠ t)
      (hroom : (s.port p).openTags.length < 4) : Acts p s ((s.openTag p t kind).answerTag p t .notAttached [])
  | owner (t : Tag) (kind : Byte) (needs : Bool) (own : State → State × Reply) (hown : IsOwner p t needs own)
      (hfresh : ∀ e ∈ (s.port p).openTags, e.tag ≠ t) (hroom : (s.port p).openTags.length < 4)
      (hsession : needs = true → s.attached p = true) :
      Acts p s ((own (s.openTag p t kind)).1.giveReply p t (own (s.openTag p t kind)).2)

/-- What the part does on its own or on an edge (R28, R52, R53, R73, R74, R82, R105, R127). -/
inductive Occurs (s : State) : State → Prop
  | nothing : Occurs s s
  | period (c : ClassNo) (due : Nat) (h : (s.cls c).periodTimer = some due) :
      Occurs s (((s.advanceTo due).setCls c { s.cls c with periodTimer := some (due + s.periodTime c) }).trigger c).1
  | edge (line : XtLine) : Occurs s
      (allClasses.foldl (fun s c => if (s.cls c).source.isLine line then (s.trigger c).1 else s) s)
  | grant : Occurs s s.grantNext
  | settles (j : HeldJob) (due : Nat) (h : s.frontEnd.converter = .settling j due) :
      Occurs s ((s.advanceTo due).setFrontEnd { s.frontEnd with
        converter := .sampling j (max s.now due + Config.conversionTime) })
  | completes (j : HeldJob) (due : Nat) (raw : RawReading) (h : s.frontEnd.converter = .sampling j due) :
      Occurs s (((s.advanceTo due).freeConverter raw).completeJob j raw)
  | lapses (i : SlotNo) (c : Claim) (h : (s.slot i).claim = some c) :
      Occurs s ((s.advanceTo c.due).setSlot i { s.slot i with claim := none })
  | goesStale (i : SlotNo) (due : Nat) (h : (s.slot i).staleTimer = some due) :
      Occurs s (((s.advanceTo due).setSlot i { s.slot i with quality := .stale, staleTimer := none }).raise i .stale
        (s.slot i).condition).serveWaits
  | timesOut (p : Port) (w : WaitRec) (h : s.waits.find? (fun w => w.port == p) = some w) :
      Occurs s (((s.advanceTo w.due).dropWait p).answerTag p w.tag .none [])

/-- What a command can do to the state (R164, R173, R182, R183, R190, R191). -/
inductive Happens (s : State) : State → Prop
  | nothing : Happens s s
  | resets (rst hPrst lPrst : Bool) : Happens s (s.afterReset rst hPrst lPrst)
  | rstnReleases (a b : Bool) (hrst : s.rstAsserted = true) : Happens s { s with
      rstAsserted := false
      portH := { s.portH with selectIgnored := a }
      portL := { s.portL with selectIgnored := b } }
  | prstnHeld (p : Port) (hrst : s.rstAsserted = true) :
      Happens s (s.setPort p { s.port p with prstAsserted := true, selectIgnored := false })
  | prstnEnds (p : Port) (hrst : s.rstAsserted = false) (h : (s.port p).prstAsserted = false) : Happens s
      (((s.setPort p { s.port p with prstAsserted := true, selectIgnored := false }).endSession p).portReset
        p).updateAttention
  | prstnClears (p : Port) (hrst : s.rstAsserted = false) (h : (s.port p).prstAsserted = false)
      (hs : (s.port p).session = .detached) : Happens s
      ((s.setPort p { s.port p with prstAsserted := true, selectIgnored := false }).portReset p).updateAttention
  | prstnReleases (p : Port) (a : Bool) (h : (s.port p).prstAsserted = true) : Happens s
      (s.setPort p { s.port p with prstAsserted := false, selectIgnored := a && !s.rstAsserted })
  | ignores (p : Port) (c : Option CollectPhase) (hc : c = none ∨ c = some .ignored) (hrst : s.rstAsserted = false)
      (h : (s.port p).prstAsserted = false) : Happens s
      (s.setPort p { s.port p with selectIgnored := false, collecting := c })
  | transacts (p : Port) (u : State) (hrst : s.rstAsserted = false) (h : (s.port p).prstAsserted = false)
      (hu : Acts p (s.endCollect p) u) : Happens s u.updateAttention
  | collects (p : Port) (n : Nat) (hrst : s.rstAsserted = false) (h : (s.port p).prstAsserted = false) :
      Happens s (s.collectOn p n).updateAttention
  | collectsLast (p : Port) (n : Nat) (hrst : s.rstAsserted = false) (h : (s.port p).prstAsserted = false) :
      Happens s ((s.collectOn p n).endCollect p).updateAttention
  | event (u : State) (hrst : s.rstAsserted = false) (hu : Occurs s u) : Happens s u.updateAttention

theorem transaction_happens (s : State) (p : Port) (act : State → State) (h : Acts p (s.endCollect p) (act (s.endCollect p))) :
    Happens s (s.transaction p act) := by
  unfold State.transaction
  split
  next => exact .nothing
  next hline =>
    simp only [not_or, Bool.not_eq_true] at hline
    split
    next => exact .ignores p none (.inl rfl) hline.1 hline.2
    next => exact .transacts p _ hline.1 hline.2 h

theorem submit_happens (s : State) (p : Port) (t : Tag) (kind : Byte) (needs : Bool) (own : State → State × Reply)
    (hown : IsOwner p t needs own) : Happens s (s.submit p t kind needs own) := by
  refine transaction_happens s p _ ?_
  split
  next => exact .refuses t kind _
  next hfresh =>
    have hfresh : ∀ e ∈ ((s.endCollect p).port p).openTags, e.tag ≠ t := by simpa [State.tagOpen] using hfresh
    split
    next => exact .refuses t kind _
    next hroom =>
      have hroom : ((s.endCollect p).port p).openTags.length < 4 := Nat.not_le.1 hroom
      unfold State.accept
      split
      next => exact .notAttached t kind hfresh hroom
      next hsession =>
        exact .owner t kind needs own hown hfresh hroom fun hn => by simpa [hn] using hsession

theorem request_happens {i : Instr} {p : Port} {t : Tag} {k : Kind} {args : List Byte}
    (h : requestParts i = some (p, t, k, args)) (s : State) :
    (∃ u, exec i s = .next u ∧ Happens s u) ∧ ∃ u, runRequest i s = .next u ∧ Happens s u := by
  obtain ⟨own, hown, hmeans⟩ := request_of_parts h
  exact ⟨⟨_, (hmeans s).1, submit_happens s p t _ _ own hown⟩, _, (hmeans s).2, submit_happens s p t _ _ own hown⟩

theorem takeFrame_happens (p : Port) (t : Tag) (kind : Byte) (args : List Byte) (s : State) :
    ∃ u, takeFrame p t kind args s = .next u ∧ Happens s u := by
  unfold takeFrame
  split
  next i hi =>
    obtain ⟨k, rfl⟩ : ∃ k, i = requestOf p t k args := by
      unfold decodeRequest at hi
      split at hi
      next => cases hi
      next k _ => exact ⟨k, by split at hi <;> simp_all⟩
    obtain ⟨_, h⟩ := requestParts_requestOf p t k args
    exact (request_happens h s).2
  next => exact ⟨_, rfl, submit_happens s p t kind false _ .badRequest⟩

theorem takeSubmit_happens (p : Port) (bytes : List Byte) (s : State) :
    ∃ u, takeSubmit p bytes s = .next u ∧ Happens s u := by
  unfold takeSubmit
  split
  next => exact ⟨_, rfl, transaction_happens s p _ .counts⟩
  next => exact takeFrame_happens ..

theorem event_happens (s : State) (act : State → State) (h : Occurs s (act s)) : Happens s (s.event act) := by
  unfold State.event
  split
  next => exact .nothing
  next hrst => exact .event _ (by simpa using hrst) h

theorem execPrstnAssert_happens (p : Port) (s : State) : ∃ u, execPrstnAssert p s = .next u ∧ Happens s u := by
  unfold execPrstnAssert
  split
  next => exact ⟨_, rfl, .nothing⟩
  next hp =>
    have hp : (s.port p).prstAsserted = false := by simpa using hp
    simp only
    split
    next hrst => exact ⟨_, rfl, .prstnHeld p hrst⟩
    next hrst =>
      have hrst : s.rstAsserted = false := by simpa using hrst
      split
      next => exact ⟨_, rfl, .prstnEnds p hrst hp⟩
      next hs =>
        refine ⟨_, rfl, .prstnClears p hrst hp ?_⟩
        rw [State.attached_iff] at hs
        cases h : (s.port p).session with
        | detached => rfl
        | attached => exact absurd h hs

theorem execCollect_happens (p : Port) (part : CollectPart) (s : State) :
    ∃ u, execCollect p part s = .next u ∧ Happens s u := by
  unfold execCollect
  split
  next => exact ⟨_, rfl, .nothing⟩
  next hline =>
    simp only [not_or, Bool.not_eq_true] at hline
    split
    next => exact ⟨_, rfl, .ignores p _ (by split <;> simp) hline.1 hline.2⟩
    next =>
      split
      next => exact ⟨_, rfl, .collects p _ hline.1 hline.2⟩
      next => exact ⟨_, rfl, .collectsLast p _ hline.1 hline.2⟩

/-- Every command has an effect, and it is one of those that can happen. -/
theorem exec_happens (c : Instr) (s : State) : ∃ u, exec c s = .next u ∧ Happens s u := by
  cases hparts : requestParts c with
  | some x =>
    obtain ⟨p, t, k, args⟩ := x
    exact (request_happens hparts s).1
  | none =>
    cases c with
    | powerUp r h l => exact ⟨_, rfl, .resets r h l⟩
    | deviceReset => exact ⟨_, rfl, .resets ..⟩
    | rstnRelease a b =>
      simp only [exec, execRstnRelease]
      split
      next h => exact ⟨_, rfl, .rstnReleases a b h⟩
      next => exact ⟨_, rfl, .nothing⟩
    | prstnAssert p => exact execPrstnAssert_happens p s
    | prstnRelease p a =>
      simp only [exec, execPrstnRelease]
      split
      next h => exact ⟨_, rfl, .prstnReleases p _ h⟩
      next => exact ⟨_, rfl, .nothing⟩
    | badCommandByte p b =>
      simp only [exec, execBadCommandByte]
      split
      next => exact takeSubmit_happens ..
      next =>
        split
        next => exact ⟨_, rfl, transaction_happens s p _ .begins⟩
        next => exact ⟨_, rfl, transaction_happens s p _ .counts⟩
    | frameDiscard p bytes => exact takeSubmit_happens ..
    | badRequestFrame p t kind args => exact takeFrame_happens ..
    | requestRefusal p t kind args => exact takeFrame_happens ..
    | collect p part => exact execCollect_happens ..
    | periodExpiry c =>
      refine ⟨_, rfl, event_happens s _ ?_⟩
      simp only
      split
      next => exact .nothing
      next due h => exact .period c due h
    | xtRisingEdge line => exact ⟨_, rfl, event_happens s _ (.edge line)⟩
    | grant => exact ⟨_, rfl, event_happens s _ .grant⟩
    | settlingElapsed =>
      refine ⟨_, rfl, event_happens s _ ?_⟩
      simp only
      split
      next j due h => exact .settles j due h
      next => exact .nothing
      next => exact .nothing
    | conversionComplete input =>
      refine ⟨_, rfl, event_happens s _ ?_⟩
      split
      next j due h => exact .completes j due _ h
      next => exact .nothing
      next => exact .nothing
    | claimLapse i =>
      refine ⟨_, rfl, event_happens s _ ?_⟩
      simp only
      split
      next => exact .nothing
      next c h => exact .lapses i c h
    | staleExpiry i =>
      refine ⟨_, rfl, event_happens s _ ?_⟩
      simp only
      split
      next => exact .nothing
      next due h => exact .goesStale i due h
    | waitTimeout p =>
      refine ⟨_, rfl, event_happens s _ ?_⟩
      split
      next => exact .nothing
      next w h => exact .timesOut p w h
    | _ => simp [requestParts] at hparts

/-! ## Steps -/

/-- The state before its command is taken, or after a microsecond: the model's queue, counter and clock may differ, and
the clock moves on only while RSTn is released (R191). -/
def Waited (s u : State) : Prop :=
  ∃ q n m, u = { s with pending := q, freeIndex := n, now := m } ∧ s.now ≤ m ∧ (s.rstAsserted = true → m = s.now)

/-- A step is what a command can do, on a state that differs in the model's own fields alone. -/
theorem step_happens {s t : State} (h : step s = .next t) : ∃ u, Waited s u ∧ Happens u t := by
  have of_exec (c : Instr) (q : List Instr) (n : Nat)
      (he : exec c { s with pending := q, freeIndex := n } = .next t) : ∃ u, Waited s u ∧ Happens u t := by
    obtain ⟨v, hv, hhap⟩ := exec_happens c { s with pending := q, freeIndex := n }
    rw [hv] at he
    cases he
    exact ⟨_, ⟨q, n, s.now, rfl, le_rfl, fun _ => rfl⟩, hhap⟩
  unfold step at h
  split at h
  next hq =>
    unfold idle at h
    split at h
    next =>
      cases h
      exact ⟨s, ⟨s.pending, s.freeIndex, s.now, rfl, le_rfl, fun _ => rfl⟩, .nothing⟩
    next hrst =>
      split at h
      next =>
        cases h
        exact ⟨_, ⟨s.pending, s.freeIndex, s.now + 1, rfl, Nat.le_succ _, fun e => absurd e hrst⟩, .nothing⟩
      next e _ => exact of_exec e s.pending (s.freeIndex + 1) h
  next c q hq => exact of_exec c q s.freeIndex h

end Sys2Proof.Machine
end

section
/-! SUPPORT. The moves that events are made of: each writes one record, or the records that one rule writes together, under
what the rule guards. Every event is a sequence of moves, and a law of the device is kept by every event because it is
kept by every move. -/

namespace Sys2Proof.Machine

/-! ## A point's record -/

/-- R5, R9, R27, R94, R97 of one record: its configuration is in range and past the limit check, its staged copy in range,
its pending state and its condition agree with the configuration. -/
structure PointSlot.Legal (r : PointSlot) : Prop where
  inRange : r.cfg.InRange
  limits : limitCheck r.cfg = true
  staged : ∀ c ∈ r.claim, c.staged.InRange
  count : r.pendingCount = 0 ↔ r.pendingCandidate = none
  confirm : r.pendingCandidate ≠ none → r.pendingCount < r.cfg.confirm
  condition : r.condition ≠ .normal → (limitOf r.cfg r.condition).isSome = true

theorem legal_iff (s : State) : (∀ i, (s.slot i).Legal) ↔ ConfigLaw s ∧ PendingLaw s ∧ ConditionLaw s := by
  constructor
  · exact fun h => ⟨fun i => ⟨(h i).inRange, (h i).limits, (h i).staged⟩, fun i => ⟨(h i).count, (h i).confirm⟩,
      fun i => (h i).condition⟩
  · rintro ⟨hcfg, hpend, hcond⟩ i
    obtain ⟨h1, h2, h3⟩ := hcfg i
    exact ⟨h1, h2, h3, (hpend i).1, (hpend i).2, hcond i⟩

/-- What an event may make of a point's record beside its timer, short of a definition, a retire, a new claim or a link:
the point stays the same point with the same link, a FREE record stays as it is, and a legal record stays legal. -/
structure PointSlot.Evolves (r r' : PointSlot) : Prop where
  state : r'.state = r.state
  gen : r'.gen = r.gen
  key : r'.key = r.key
  link : r'.link = r.link
  claim : r'.claim = none ∨ r'.claim = r.claim
  freed : ∀ g, r = PointSlot.freed g → r' = r
  legal : r.Legal → r'.Legal

theorem PointSlot.Evolves.refl (r : PointSlot) : r.Evolves r :=
  ⟨rfl, rfl, rfl, rfl, Or.inr rfl, fun _ _ => rfl, id⟩

/-- What a DEFINED record may become is not held by the rule for FREE ones. -/
theorem PointSlot.Evolves.ofDefined {r r' : PointSlot} (hd : r.state = .defined) (state : r'.state = r.state)
    (gen : r'.gen = r.gen) (key : r'.key = r.key) (link : r'.link = r.link)
    (claim : r'.claim = none ∨ r'.claim = r.claim) (legal : r.Legal → r'.Legal) : r.Evolves r' :=
  ⟨state, gen, key, link, claim, fun g hg => absurd hd (by simp [hg, PointSlot.freed]), legal⟩

theorem PointSlot.evolves_staleTimer (r : PointSlot) (due : Option Nat) (h : ∀ g, r = PointSlot.freed g → due = none) :
    r.Evolves { r with staleTimer := due } where
  state := rfl
  gen := rfl
  key := rfl
  link := rfl
  claim := .inr rfl
  freed := fun g hg => by
    rw [h g hg, hg]
    rfl
  legal := fun h => ⟨h.inRange, h.limits, h.staged, h.count, h.confirm, h.condition⟩

namespace State

/-- The slot's record is not the one that a FREE slot holds (R1, R22). -/
def Live (s : State) (i : SlotNo) : Prop := s.slot i ≠ PointSlot.freed (s.slot i).gen

theorem live_of_defined {s : State} {i : SlotNo} (h : (s.slot i).state = .defined) : s.Live i := by
  intro e
  rw [e] at h
  cases h

theorem defined_of_live {s : State} (h : FreeSlotLaw s) (i : SlotNo) (hi : s.Live i) : (s.slot i).state = .defined := by
  cases hs : (s.slot i).state with
  | free => exact absurd (h i hs).1 hi
  | defined => rfl

/-- R36, R50, R91: the timer that a written record brings is stopped, or runs on as it was, with its interval unless the
point is in no active list, or is started with the full interval of a point in an active list. -/
def TimerMoves (s : State) (i : SlotNo) (r : PointSlot) : Prop :=
  r.staleTimer = none ∨
  (r.staleTimer = (s.slot i).staleTimer ∧
    (r.cfg.staleInterval = (s.slot i).cfg.staleInterval ∨ s.listedActive i = false)) ∨
  (s.listedActive i = true ∧ ∃ ms, r.cfg.staleInterval = some ms ∧ r.staleTimer = some (s.now + ms * 1000))

/-- R109, R110, R122 of one notice. -/
def NoticeLegal (s : State) (i : SlotNo) (n : Notice) : Prop :=
  s.names i n.gen = true ∧ (1 ≤ n.count ∧ n.count ≤ 255) ∧
    match n.state with
    | .pending => n.followOn = none
    | .delivered p => s.attached p = true

theorem noticeLaw_iff (s : State) : NoticeLaw s ↔ ∀ i n, s.notice i = some n → s.NoticeLegal i n := Iff.rfl

/-- The end of a port's session in every block, before the other port's wait is served (R181). -/
def sessionEnded (s : State) (p : Port) : State :=
  (((((s.clearTraffic p).dropJobs p).dropWait p).mapNotices (Notice.returnFrom p)).mapSlots
    (PointSlot.withoutClaim p)).mapOutputs (OutputChannel.releasePin p)

theorem endSession_eq (s : State) (p : Port) : s.endSession p = (s.sessionEnded p).serveWaits := rfl

/-- The point records, notices, actions, classes, pins, sessions and the converter's class job are as they were, and the
clock has not gone back. -/
structure SameBlocks (s u : State) : Prop where
  pending : u.pending = s.pending
  rst : u.rstAsserted = s.rstAsserted
  now : s.now ≤ u.now
  slots : u.slots = s.slots
  keyMap : u.keyMap = s.keyMap
  classes : u.classes = s.classes
  notices : u.notices = s.notices
  actions : u.actions = s.actions
  pins : ∀ o, (u.output o).pin = (s.output o).pin
  sessions : ∀ p, (u.port p).session = (s.port p).session
  held : ∀ c j, u.frontEnd.converter.held = some (.scan c j) ↔ s.frontEnd.converter.held = some (.scan c j)

end State

/-- R134 of one action record: only an ARMED action has links or a budget. -/
def ActionRec.Legal (r : ActionRec) : Prop :=
  match r.state with
  | .armed => 1 ≤ r.budget ∧ r.budget ≤ 255
  | .free | .spent => r.linkCount = 0 ∧ r.budget = 0

theorem actionLaw_iff (s : State) :
    ActionLaw s ↔ ∀ a, (s.action a).linkCount = s.linkedPoints a ∧ (s.action a).Legal := Iff.rfl

/-! ## The moves -/

/-- The moves of the scan scheduler (R46 to R66, R82). -/
inductive SchedMove (s : State) : State → Prop
  | book (c : ClassNo) (r : ScanClass) (hlist : r.list = (s.cls c).list) (hcursor : r.cursor = (s.cls c).cursor)
      (hstate : r.state = (s.cls c).state) (hjob : r.job = (s.cls c).job) (hmark : r.removedMark = (s.cls c).removedMark)
      (hover : (s.cls c).overruns ≤ 255 → r.overruns ≤ 255)
      (htimer : r.periodTimer.isSome = (s.cls c).periodTimer.isSome)
      (hsource : r.source = (s.cls c).source ∨ (s.cls c).state = .stopped) : SchedMove s (s.setCls c r)
  | start (c : ClassNo) (hstate : (s.cls c).state = .stopped) : SchedMove s
      ((s.setCls c { s.cls c with
        state := .waiting
        overruns := 0
        periodTimer := if (s.cls c).source = .periodic then some (s.now + s.periodTime c) else none
        }).startTimers (s.cls c).list)
  | stop (c : ClassNo) (hstop : (s.cls c).state = .waiting ∨ ∀ j, (s.cls c).job = some j → j.phase = .posted) :
      SchedMove s (s.reachStopped c)
  | stopping (c : ClassNo) (j : ScanJob) (hstate : (s.cls c).state = .running)
      (hjob : (s.cls c).job = some { job := j, phase := .converting }) :
      SchedMove s (s.setCls c { s.cls c with state := .stopping })
  | pass (c : ClassNo) (hstate : (s.cls c).state = .waiting) : SchedMove s
      ((s.setCls c { s.cls c with
        state := .running, cursor := 0, passSeq := (s.cls c).passSeq + 1 }).continuePass c)
  | insert (c : ClassNo) (k : Nat) (i : SlotNo) (g : Generation) (hi : s.names i g = true)
      (hlisted : s.membership i = none) (hk : k ≤ (s.cls c).list.length) (hroom : (s.cls c).list.length < 48) :
      SchedMove s (s.insertEntry c k { slot := i, gen := g })
  | remove (c : ClassNo) (k : Nat) (i : SlotNo) (g : Generation) (hi : s.names i g = true)
      (hk : (s.cls c).indexOf i g = some k) : SchedMove s ((s.removeEntry c k).stopTimer i)
  | grant (c : ClassNo) (j : ScanJob) (hidle : s.frontEnd.converter = .idle)
      (hjob : (s.cls c).job = some { job := j, phase := .posted }) : SchedMove s (s.grantScan c j)
  | finish (c : ClassNo) (j : ScanJob) (raw : RawReading) (hheld : s.frontEnd.converter.held = some (.scan c j)) :
      SchedMove s ((s.freeConverter raw).finishJob c)

/-- The moves of the part (R11, R17 to R22, R28, R112 to R132, R136 to R148, R174, R181). -/
inductive Move (s : State) : State → Prop
  | rest (u : State) (h : s.SameBlocks u) : Move s u
  | slot (i : SlotNo) (r : PointSlot) (h : (s.slot i).Evolves r) (ht : s.TimerMoves i r) : Move s (s.setSlot i r)
  | claim (i : SlotNo) (c : Claim) (hd : (s.slot i).state = .defined) (ha : s.attached c.owner = true)
      (hs : (s.slot i).Legal → c.staged.InRange) : Move s (s.setSlot i { s.slot i with claim := some c })
  | notice (i : SlotNo) (n : Option Notice) (hfree : ¬s.Live i → s.notice i = none → n = none)
      (hlegal : (s.Live i → (s.slot i).state = .defined) → (∀ m, s.notice i = some m → s.NoticeLegal i m) →
        ∀ m, n = some m → s.NoticeLegal i m) :
      Move s (s.setNotice i n)
  | pin (o : OutputNo) (r : OutputChannel) (h : ∀ p, r.pin = some p → s.attached p = true) : Move s (s.setOutput o r)
  | attach (p : Port) (r : PortRec) (h : r.session = .attached) : Move s (s.setPort p r)
  | sessionEnds (p : Port) : Move s (s.sessionEnded p)
  | define (i : SlotNo) (key : Word32) (cfg : PointConfig) (hi : (s.slot i).state = .free) (hkey : key ≠ 0)
      (hnew : ∀ e ∈ s.keyMap, e.key ≠ key) (hcfg : cfg.InRange) (hlim : limitCheck cfg = true) : Move s
      ((s.setSlot i (PointSlot.fresh ((s.slot i).gen + 1) key cfg)).setKeyMap ({ key := key, slot := i } :: s.keyMap))
  | retire (i : SlotNo) (hi : (s.slot i).state = .defined) : Move s (s.retire i)
  | link (i : SlotNo) (a : ActionNo) (hi : (s.slot i).state = .defined) (ha : (s.action a).state = .armed)
      (hl : (s.slot i).link = none) : Move s ((s.setSlot i { s.slot i with link := some a }).setAction a
        { s.action a with linkCount := (s.action a).linkCount + 1 })
  | unlink (i : SlotNo) (a : ActionNo) (hl : (s.slot i).link = some a) :
      Move s ((s.setSlot i { s.slot i with link := none }).unlink a)
  | drive (a : ActionNo) (ha : (s.action a).state = .armed) : Move s (s.useBudget a)
  | action (a : ActionNo) (r : ActionRec)
      (h : (s.action a).Legal → r.Legal ∧ r.linkCount = (s.action a).linkCount) : Move s (s.setAction a r)
  | sched (u : State) (h : SchedMove s u) : Move s u

/-- A sequence of moves. -/
def Moves : State → State → Prop := Relation.ReflTransGen Move

theorem Moves.refl (s : State) : Moves s s := Relation.ReflTransGen.refl

theorem Moves.trans {s u v : State} (h : Moves s u) (h' : Moves u v) : Moves s v := Relation.ReflTransGen.trans h h'

theorem Move.moves {s u : State} (h : Move s u) : Moves s u := Relation.ReflTransGen.single h

theorem Moves.move {s u v : State} (h : Moves s u) (h' : Move u v) : Moves s v := Relation.ReflTransGen.tail h h'

/-- What every move keeps, every sequence of moves keeps. -/
theorem Moves.keeps {P : State → Prop} (hP : ∀ s u, P s → Move s u → P u) {s u : State} (h : Moves s u) (hs : P s) :
    P u := by
  induction h with
  | refl => exact hs
  | tail _ hm ih => exact hP _ _ ih hm

end Sys2Proof.Machine
end

section
/-! SUPPORT. The laws of the points, the notices, the pins and the actions, kept by every move: most moves leave all of a
point but its live fields, and each law has the few moves that it speaks of. -/

namespace Sys2Proof.Machine

/-! ## Moves that leave the points what they are -/

theorem PointSlot.Evolves.trans {r r' r'' : PointSlot} (h : r.Evolves r') (h' : r'.Evolves r'') : r.Evolves r'' where
  state := h'.state.trans h.state
  gen := h'.gen.trans h.gen
  key := h'.key.trans h.key
  link := h'.link.trans h.link
  claim := by
    rcases h'.claim with e | e
    · exact .inl e
    · rw [e]
      exact h.claim
  freed := fun g hg => by
    have e := h.freed g hg
    rw [h'.freed g (e.trans hg), e]
  legal := h'.legal ∘ h.legal

namespace State

/-- Of the points at most the live fields have moved on, and the key map, notices, actions, pins and sessions are as they
were. -/
structure SamePoints (s u : State) : Prop where
  pending : u.pending = s.pending
  rst : u.rstAsserted = s.rstAsserted
  slots : ∀ i, (s.slot i).Evolves (u.slot i)
  keyMap : u.keyMap = s.keyMap
  notices : ∀ i, u.notice i = s.notice i
  actions : ∀ a, u.action a = s.action a
  pins : ∀ o, (u.output o).pin = (s.output o).pin
  sessions : ∀ p, (u.port p).session = (s.port p).session

theorem SamePoints.refl (s : State) : SamePoints s s :=
  ⟨rfl, rfl, fun _ => .refl _, rfl, fun _ => rfl, fun _ => rfl, fun _ => rfl, fun _ => rfl⟩

theorem SamePoints.trans {s u v : State} (h : SamePoints s u) (h' : SamePoints u v) : SamePoints s v where
  pending := h'.pending.trans h.pending
  rst := h'.rst.trans h.rst
  slots i := (h.slots i).trans (h'.slots i)
  keyMap := h'.keyMap.trans h.keyMap
  notices i := (h'.notices i).trans (h.notices i)
  actions a := (h'.actions a).trans (h.actions a)
  pins o := (h'.pins o).trans (h.pins o)
  sessions p := (h'.sessions p).trans (h.sessions p)

theorem SameBlocks.samePoints {s u : State} (h : SameBlocks s u) : SamePoints s u where
  pending := h.pending
  rst := h.rst
  slots i := by simp only [slot, h.slots]; exact .refl _
  keyMap := h.keyMap
  notices i := by simp only [notice, h.notices]
  actions a := by simp only [action, h.actions]
  pins := h.pins
  sessions := h.sessions

theorem samePoints_setSlot (s : State) (i : SlotNo) (r : PointSlot) (h : (s.slot i).Evolves r) :
    SamePoints s (s.setSlot i r) where
  pending := rfl
  rst := rfl
  slots j := by
    rw [slot_setSlot]
    split
    next e => exact e ▸ h
    next => exact .refl _
  keyMap := rfl
  notices _ := rfl
  actions _ := rfl
  pins _ := rfl
  sessions p := by rw [setSlot_port]

theorem samePoints_setCls (s : State) (c : ClassNo) (r : ScanClass) : SamePoints s (s.setCls c r) :=
  ⟨rfl, rfl, fun _ => .refl _, rfl, fun _ => rfl, fun _ => rfl, fun _ => rfl, fun p => by rw [setCls_port]⟩

theorem samePoints_setFrontEnd (s : State) (fe : FrontEnd) : SamePoints s (s.setFrontEnd fe) :=
  ⟨rfl, rfl, fun _ => .refl _, rfl, fun _ => rfl, fun _ => rfl, fun _ => rfl, fun p => by rw [setFrontEnd_port]⟩

theorem SameButSlots.samePoints {s u : State} (h : SameButSlots s u) (hs : ∀ i, (s.slot i).Evolves (u.slot i)) :
    SamePoints s u := by
  obtain ⟨h1, -, -, h4, h5, -, -, h8, -, -, h11, h12, h13, h14⟩ := h
  exact ⟨h1, h4, hs, h5, fun i => by simp only [notice, h8], fun a => by simp only [action, h11],
    fun o => by simp only [output, h12], fun p => by cases p <;> simp [h13, h14]⟩

theorem startTimer_evolves (s : State) (i : SlotNo) : (s.slot i).Evolves ((s.startTimer i).slot i) := by
  rw [startTimer_eq, slot_setSlot_self]
  exact PointSlot.evolves_staleTimer _ _ fun g hg => by simp [hg, PointSlot.freed, PointConfig.reset]

theorem startTimers_samePoints (s : State) (es : List ListEntry) : SamePoints s (s.startTimers es) := by
  obtain ⟨hsame, hslot⟩ := startTimers_spec es s
  refine hsame.samePoints fun i => ?_
  rw [hslot]
  split
  next =>
    split
    next => exact .refl _
    next ms hms => exact PointSlot.evolves_staleTimer _ _ fun g hg => by simp [hg, PointSlot.freed, PointConfig.reset] at hms
  next => exact .refl _

theorem stopTimers_samePoints (s : State) (es : List ListEntry) : SamePoints s (s.stopTimers es) := by
  obtain ⟨hsame, hslot⟩ := stopTimers_spec es s
  refine hsame.samePoints fun i => ?_
  rw [hslot]
  split
  next => exact PointSlot.evolves_staleTimer _ _ fun _ _ => rfl
  next => exact .refl _

theorem continuePass_samePoints (s : State) (c : ClassNo) : SamePoints s (s.continuePass c) := by
  obtain ⟨r, hr, -⟩ := continuePass_frame s c
  exact hr ▸ samePoints_setCls s c r

theorem reachStopped_samePoints (s : State) (c : ClassNo) : SamePoints s (s.reachStopped c) :=
  (stopTimers_samePoints s _).trans (samePoints_setCls ..)

theorem enter_samePoints (s : State) (j : HeldJob) (ch : ChannelNo) (g : Gain) : SamePoints s (s.enter j ch g) := by
  unfold enter
  split
  next => exact samePoints_setFrontEnd ..
  next => exact samePoints_setFrontEnd ..

/-- A class's record with its job over and its cursor moved on, unless the removed mark keeps it (R58). -/
def jobEnded (s : State) (c : ClassNo) : ScanClass :=
  { s.cls c with
    job := none
    removedMark := false
    cursor := if (s.cls c).removedMark then (s.cls c).cursor else (s.cls c).cursor + 1 }

theorem finishJob_eq (s : State) (c : ClassNo) : s.finishJob c =
    if (s.cls c).state = .stopping then (s.setCls c (s.jobEnded c)).reachStopped c
    else (s.setCls c (s.jobEnded c)).continuePass c := by
  simp [finishJob, jobEnded]

theorem finishJob_samePoints (s : State) (c : ClassNo) : SamePoints s (s.finishJob c) := by
  rw [finishJob_eq]
  split
  next => exact (samePoints_setCls ..).trans (reachStopped_samePoints ..)
  next => exact (samePoints_setCls ..).trans (continuePass_samePoints ..)

end State

theorem SchedMove.samePoints {s u : State} (h : SchedMove s u) : s.SamePoints u := by
  cases h with
  | book c r => exact State.samePoints_setCls ..
  | start c => exact (State.samePoints_setCls ..).trans (State.startTimers_samePoints ..)
  | stop c => exact State.reachStopped_samePoints ..
  | stopping c => exact State.samePoints_setCls ..
  | pass c => exact (State.samePoints_setCls ..).trans (State.continuePass_samePoints ..)
  | insert c k i g => exact State.samePoints_setCls ..
  | remove c k i g =>
    obtain ⟨r, hr, -⟩ := State.removeEntry_frame s c k
    rw [hr]
    exact (State.samePoints_setCls ..).trans
      (State.samePoints_setSlot _ _ _ (PointSlot.evolves_staleTimer _ _ fun _ _ => rfl))
  | grant c j => exact (State.samePoints_setCls ..).trans (State.enter_samePoints ..)
  | finish c j raw => exact (State.samePoints_setFrontEnd ..).trans (State.finishJob_samePoints ..)

namespace State

/-! ## What a retire leaves (R18 to R22) -/

/-- The entry of a retired point leaves its list, and of the points nothing changes. -/
theorem retireEntry_frame (s : State) (i : SlotNo) :
    s.retireEntry i = s ∨ ∃ c r, s.retireEntry i = s.setCls c r := by
  unfold retireEntry
  split
  next => exact .inl rfl
  next c k _ =>
    obtain ⟨r, hr, -⟩ := removeEntry_frame s c k
    exact .inr ⟨c, r, hr⟩

/-- A retire by block: its slot is FREE with its generation kept, its key and its notice are gone, and its link is taken
back from its action. -/
structure Retired (s u : State) (i : SlotNo) : Prop where
  pending : u.pending = s.pending
  rst : u.rstAsserted = s.rstAsserted
  now : u.now = s.now
  slots : ∀ j, u.slot j = if i = j then PointSlot.freed (s.slot i).gen else s.slot j
  keyMap : u.keyMap = s.keyMap.filter fun e => e.slot != i
  notices : ∀ j, u.notice j = if i = j then none else s.notice j
  actions : ∀ a, u.action a = if (s.slot i).link = some a then
    { s.action a with linkCount := (s.action a).linkCount - 1 } else s.action a
  pins : ∀ o, (u.output o).pin = (s.output o).pin
  ports : ∀ p, u.port p = s.port p
  frontEnd : u.frontEnd = s.frontEnd
  waits : u.waits = s.waits
  raiseSeq : u.raiseSeq = s.raiseSeq
  classes : u.classes = (s.retireEntry i).classes

theorem dropSaved_pin (s : State) (who : LastWriter → Bool) (o : OutputNo) :
    ((s.dropSaved who).output o).pin = (s.output o).pin := by
  simp only [dropSaved, output_mapOutputs]
  split <;> rfl

theorem retired_of_entry (s v : State) (i : SlotNo) (hv : v = s ∨ ∃ c r, v = s.setCls c r)
    (hclasses : v.classes = (s.retireEntry i).classes) :
    Retired s ((((v.setNotice i none).retireLink i).setSlot i (PointSlot.freed (s.slot i).gen)).setKeyMap
      (s.keyMap.filter fun e => e.slot != i)) i := by
  have hslot : ∀ j, v.slot j = s.slot j := by rcases hv with rfl | ⟨c, r, rfl⟩ <;> exact fun _ => rfl
  have hnotice : ∀ j, v.notice j = s.notice j := by rcases hv with rfl | ⟨c, r, rfl⟩ <;> exact fun _ => rfl
  have haction : ∀ a, v.action a = s.action a := by rcases hv with rfl | ⟨c, r, rfl⟩ <;> exact fun _ => rfl
  have hpin : ∀ o, v.output o = s.output o := by rcases hv with rfl | ⟨c, r, rfl⟩ <;> exact fun _ => rfl
  have hport : ∀ p, v.port p = s.port p := by
    rcases hv with rfl | ⟨c, r, rfl⟩
    · exact fun _ => rfl
    · exact setCls_port s c r
  have hrest : v.pending = s.pending ∧ v.rstAsserted = s.rstAsserted ∧ v.now = s.now ∧ v.frontEnd = s.frontEnd ∧
      v.waits = s.waits ∧ v.raiseSeq = s.raiseSeq := by
    rcases hv with rfl | ⟨c, r, rfl⟩ <;> exact ⟨rfl, rfl, rfl, rfl, rfl, rfl⟩
  obtain ⟨h1, h2, h3, h4, h5, h6⟩ := hrest
  have hlink : ((v.setNotice i none).slot i).link = (s.slot i).link := by rw [setNotice_slot, hslot]
  have key : ∀ w : State, (w = v.setNotice i none ∧ (s.slot i).link = none) ∨
      (∃ a, (s.slot i).link = some a ∧ w = ((v.setNotice i none).unlink a).dropSaved (LastWriter.isDrive a i)) →
      Retired s ((w.setSlot i (PointSlot.freed (s.slot i).gen)).setKeyMap (s.keyMap.filter fun e => e.slot != i)) i := by
    rintro w (⟨rfl, hl⟩ | ⟨a, hl, rfl⟩)
    · refine ⟨h1, h2, h3, fun j => ?_, rfl, fun j => ?_, fun a => ?_, fun o => ?_, fun p => ?_, h4, h5, h6, hclasses⟩
      · simp [slot_setSlot, hslot]
      · simp [notice_setNotice, hnotice]
      · simp [hl, haction]
      · simp [hpin]
      · simp [hport]
    · refine ⟨h1, h2, h3, fun j => ?_, rfl, fun j => ?_, fun b => ?_, fun o => ?_, fun p => ?_, h4, h5, h6, hclasses⟩
      · simp [slot_setSlot, hslot, dropSaved, unlink]
      · simp [notice_setNotice, hnotice, dropSaved, unlink]
      · simp only [setKeyMap_action, setSlot_action, dropSaved, mapOutputs_action, unlink, setNotice_action, haction,
          action_setAction, hl, Option.some.injEq]
        split
        next e => rw [e]
        next => rfl
      · rw [setKeyMap_output, setSlot_output, dropSaved_pin, unlink, setAction_output, setNotice_output, hpin]
      · simp [hport, unlink]
  refine key _ ?_
  unfold retireLink
  split
  next hl => exact .inl ⟨rfl, hlink ▸ hl⟩
  next a hl => exact .inr ⟨a, hlink ▸ hl, rfl⟩

theorem retire_retired (s : State) (i : SlotNo) : Retired s (s.retire i) i := by
  have hv := retireEntry_frame s i
  have h := retired_of_entry s (s.retireEntry i) i hv rfl
  have hslot : ((((s.retireEntry i).setNotice i none).retireLink i).slot i).gen = (s.slot i).gen := by
    have : ∀ w : State, ((w.retireLink i).slot i) = w.slot i := fun w => by
      unfold retireLink
      split <;> simp [dropSaved, unlink]
    rw [this, setNotice_slot]
    rcases hv with e | ⟨c, r, e⟩
    · rw [e]
    · rw [e]
      rfl
  have hkey : (((s.retireEntry i).setNotice i none).retireLink i).keyMap = s.keyMap := by
    have : ∀ w : State, (w.retireLink i).keyMap = w.keyMap := fun w => by
      unfold retireLink
      split <;> rfl
    rw [this, setNotice_keyMap]
    rcases hv with e | ⟨c, r, e⟩
    · rw [e]
    · rw [e]
      rfl
  simp only [retire, hslot, hkey]
  exact h

/-! ## What a session end leaves (R181) -/

section SessionEnded

variable (s : State) (p : Port)

@[simp] theorem sessionEnded_slot (i : SlotNo) : (s.sessionEnded p).slot i = (s.slot i).withoutClaim p := by
  simp [sessionEnded, clearTraffic, dropJobs, dropWait]

@[simp] theorem sessionEnded_notice (i : SlotNo) :
    (s.sessionEnded p).notice i = (s.notice i).map (Notice.returnFrom p) := by
  simp [sessionEnded, clearTraffic, dropJobs, dropWait]

@[simp] theorem sessionEnded_output (o : OutputNo) : (s.sessionEnded p).output o = (s.output o).releasePin p := by
  simp [sessionEnded, clearTraffic, dropJobs, dropWait]

@[simp] theorem sessionEnded_action (a : ActionNo) : (s.sessionEnded p).action a = s.action a := by
  simp [sessionEnded, clearTraffic, dropJobs, dropWait]

@[simp] theorem sessionEnded_port (q : Port) : (s.sessionEnded p).port q =
    if p = q then { s.port p with session := .detached, openTags := [], queue := [], refusals := [] } else s.port q := by
  simp [sessionEnded, clearTraffic, dropJobs, dropWait, port_setPort]

@[simp] theorem sessionEnded_waits : (s.sessionEnded p).waits = s.waits.filter fun w => w.port != p := by
  simp [sessionEnded, clearTraffic, dropJobs, dropWait]

@[simp] theorem sessionEnded_frontEnd : (s.sessionEnded p).frontEnd = { s.frontEnd with
    queue := s.frontEnd.queue.filter fun j => j.port != p
    converter := s.frontEnd.converter.discardFor fun j => j.port == p } := by
  simp [sessionEnded, clearTraffic, dropJobs, dropWait]

theorem sessionEnded_rest : (s.sessionEnded p).pending = s.pending ∧ (s.sessionEnded p).now = s.now ∧
    (s.sessionEnded p).rstAsserted = s.rstAsserted ∧ (s.sessionEnded p).keyMap = s.keyMap ∧
    (s.sessionEnded p).classes = s.classes ∧ (s.sessionEnded p).raiseSeq = s.raiseSeq := by
  simp [sessionEnded, clearTraffic, dropJobs, dropWait]

end SessionEnded

end State
end Sys2Proof.Machine
end

section
/-! SUPPORT. The laws of the points, the notices, the pins and the actions are kept by every move (R1 to R22, R27, R94,
R97, R109, R134, R135, R151). -/

namespace Sys2Proof.Machine

/-! ## The key map (R3) -/

theorem KeyLaw.congr {s u : State} (h : KeyLaw s) (hmap : u.keyMap = s.keyMap)
    (hslot : ∀ i, (u.slot i).state = (s.slot i).state ∧ (u.slot i).key = (s.slot i).key) : KeyLaw u := by
  simpa only [KeyLaw, State.keySlot, hmap, (hslot _).1, (hslot _).2] using h

/-- A search that finds an element finds it under a stronger test that the element passes. -/
theorem find?_filter_of_found {α : Type} (l : List α) (p q : α → Bool) (a : α) (h : l.find? q = some a)
    (hp : p a = true) : (l.filter p).find? q = some a := by
  rw [List.find?_filter]
  rw [List.find?_eq_some_iff_append] at h ⊢
  obtain ⟨hq, before, after, hl, hbefore⟩ := h
  exact ⟨by simp [hp, hq], before, after, hl, fun x hx => by simp [hbefore x hx]⟩

theorem KeyLaw.define {s : State} (h : KeyLaw s) (i : SlotNo) (g : Generation) (key : Word32) (cfg : PointConfig)
    (hi : (s.slot i).state = .free) (hkey : key ≠ 0) (hnew : ∀ e ∈ s.keyMap, e.key ≠ key) :
    KeyLaw ((s.setSlot i (PointSlot.fresh g key cfg)).setKeyMap ({ key := key, slot := i } :: s.keyMap)) := by
  obtain ⟨hmap, hdefined⟩ := h
  have hother (j : SlotNo) (hj : (s.slot j).state = .defined) : i ≠ j := by
    rintro rfl
    rw [hi] at hj
    cases hj
  constructor
  · intro e he
    rw [State.setKeyMap_slot, State.slot_setSlot]
    rcases List.mem_cons.1 he with rfl | he
    · rw [if_pos rfl]
      exact ⟨rfl, rfl⟩
    · rw [if_neg (hother _ (hmap e he).1)]
      exact hmap e he
  · intro j hj
    rw [State.setKeyMap_slot, State.slot_setSlot] at hj ⊢
    by_cases hij : i = j
    · rw [if_pos hij]
      exact ⟨hkey, by simp [State.keySlot, PointSlot.fresh, hij]⟩
    · rw [if_neg hij] at hj ⊢
      obtain ⟨hne, hfind⟩ := hdefined j hj
      obtain ⟨e, he, hslot⟩ := Option.map_eq_some_iff.1 hfind
      have hek : e.key = (s.slot j).key := by simpa using List.find?_some he
      have : key ≠ (s.slot j).key := fun e' => hnew e (List.mem_of_find?_eq_some he) (hek.trans e'.symm)
      exact ⟨hne, by simpa [State.keySlot, this] using hfind⟩

theorem KeyLaw.retire {s u : State} {i : SlotNo} (h : KeyLaw s) (hu : s.Retired u i) : KeyLaw u := by
  obtain ⟨hmap, hdefined⟩ := h
  constructor
  · intro e he
    rw [hu.keyMap, List.mem_filter] at he
    rw [hu.slots, if_neg (by simpa using Ne.symm (bne_iff_ne.1 he.2))]
    exact hmap e he.1
  · intro j hj
    rw [hu.slots] at hj ⊢
    split at hj
    next => cases hj
    next hij =>
      rw [if_neg hij]
      obtain ⟨hne, hfind⟩ := hdefined j hj
      obtain ⟨e, he, hslot⟩ := Option.map_eq_some_iff.1 hfind
      refine ⟨hne, ?_⟩
      rw [State.keySlot, hu.keyMap, find?_filter_of_found _ _ _ e he (by simpa [hslot] using Ne.symm hij)]
      simp [hslot]

/-- A use of budget writes links and its own record alone. -/
theorem useBudget_link (s : State) (a : ActionNo) (i : SlotNo) : (s.useBudget a).slot i = s.slot i ∨
    ((s.slot i).link = some a ∧ (s.useBudget a).slot i = { s.slot i with link := none }) := by
  rcases Nat.lt_or_ge 1 (s.action a).budget with h | h
  · exact .inl (by rw [State.useBudget_left s a h]; rfl)
  · rw [State.useBudget_spent s a h, State.setAction_slot, State.clearLinks_slot]
    split
    next hl => exact .inr ⟨hl, rfl⟩
    next => exact .inl rfl

theorem Move.keyLaw {s u : State} (h : KeyLaw s) (hm : Move s u) : KeyLaw u := by
  have one (i : SlotNo) (r : PointSlot) (h1 : r.state = (s.slot i).state) (h2 : r.key = (s.slot i).key) (j : SlotNo) :
      ((s.setSlot i r).slot j).state = (s.slot j).state ∧ ((s.setSlot i r).slot j).key = (s.slot j).key := by
    rw [State.slot_setSlot]
    split
    next e => exact e ▸ ⟨h1, h2⟩
    next => exact ⟨rfl, rfl⟩
  cases hm with
  | rest _ hs => exact h.congr hs.keyMap fun i => ⟨(hs.samePoints.slots i).state, (hs.samePoints.slots i).key⟩
  | slot i r hr => exact h.congr rfl (one i r hr.state hr.key)
  | claim i c => exact h.congr rfl (one i _ rfl rfl)
  | notice i n => exact h
  | pin o r => exact h
  | attach p r => exact h.congr (by simp) fun i => by simp
  | sessionEnds p =>
    refine h.congr (State.sessionEnded_rest s p).2.2.2.1 fun i => ?_
    rw [State.sessionEnded_slot, PointSlot.withoutClaim]
    split <;> exact ⟨rfl, rfl⟩
  | define i key cfg hi hkey hnew => exact h.define i _ key cfg hi hkey hnew
  | retire i => exact h.retire (State.retire_retired s i)
  | link i a => exact h.congr rfl (one i _ rfl rfl)
  | unlink i a => exact h.congr rfl (one i _ rfl rfl)
  | drive a =>
    refine h.congr (State.useBudget_same s a).2.2.2.2.1 fun i => ?_
    rcases useBudget_link s a i with e | ⟨-, e⟩ <;> rw [e] <;> exact ⟨rfl, rfl⟩
  | action a r => exact h
  | sched _ hs => exact h.congr hs.samePoints.keyMap fun i => ⟨(hs.samePoints.slots i).state, (hs.samePoints.slots i).key⟩

/-! ## What a move makes of a point's record -/

/-- What a move may make of a point's record, given the ports that are ATTACHED. -/
inductive PointSlot.Moves (attached : Port → Bool) (r : PointSlot) : PointSlot → Prop
  | evolves (r' : PointSlot) (h : r.Evolves r') : PointSlot.Moves attached r r'
  | claims (c : Claim) (hd : r.state = .defined) (ha : attached c.owner = true) (hs : r.Legal → c.staged.InRange) :
      PointSlot.Moves attached r { r with claim := some c }
  | links (l : Option ActionNo) (h : r.state = .defined ∨ r.link ≠ none) :
      PointSlot.Moves attached r { r with link := l }
  | defined (key : Word32) (cfg : PointConfig) (h : r.state = .free) (hcfg : cfg.InRange) (hlim : limitCheck cfg = true) :
      PointSlot.Moves attached r (PointSlot.fresh (r.gen + 1) key cfg)
  | retired (h : r.state = .defined) : PointSlot.Moves attached r (PointSlot.freed r.gen)

theorem PointSlot.evolves_withoutClaim (r : PointSlot) (p : Port) : r.Evolves (r.withoutClaim p) := by
  unfold PointSlot.withoutClaim
  split
  next hc =>
    exact ⟨rfl, rfl, rfl, rfl, .inl rfl, fun g hg => by simp [hg, PointSlot.freed] at hc,
      fun h => ⟨h.inRange, h.limits, fun c hc => by simp at hc, h.count, h.confirm, h.condition⟩⟩
  next => exact .refl _

theorem Move.pointMoves {s u : State} (hm : Move s u) (i : SlotNo) : (s.slot i).Moves s.attached (u.slot i) := by
  have one (j : SlotNo) (r : PointSlot) (h : (s.slot j).Moves s.attached r) :
      (s.slot i).Moves s.attached ((s.setSlot j r).slot i) := by
    rw [State.slot_setSlot]
    split
    next e => exact e ▸ h
    next => exact .evolves _ (.refl _)
  cases hm with
  | rest _ hs => exact .evolves _ (hs.samePoints.slots i)
  | slot j r hr => exact one j r (.evolves r hr)
  | claim j c hd ha hs => exact one j _ (.claims c hd ha hs)
  | notice j n => exact .evolves _ (.refl _)
  | pin o r => exact .evolves _ (.refl _)
  | attach p r => exact .evolves _ (by rw [State.setPort_slot]; exact .refl _)
  | sessionEnds p => exact .evolves _ (by rw [State.sessionEnded_slot]; exact PointSlot.evolves_withoutClaim _ p)
  | define j key cfg hj hkey hnew hcfg hlim => exact one j _ (.defined key cfg hj hcfg hlim)
  | retire j hj =>
    rw [(State.retire_retired s j).slots]
    split
    next e => exact e ▸ .retired hj
    next => exact .evolves _ (.refl _)
  | link j a hj => exact one j _ (.links _ (.inl hj))
  | unlink j a hl => exact one j _ (.links _ (.inr (by simp [hl])))
  | drive a =>
    rcases useBudget_link s a i with e | ⟨hl, e⟩
    · exact .evolves _ (by rw [e]; exact .refl _)
    · rw [e]
      exact .links none (.inr (by simp [hl]))
  | action a r => exact .evolves _ (.refl _)
  | sched _ hs => exact .evolves _ (hs.samePoints.slots i)

/-- R1, R22: the record of a FREE slot holds its reset values. -/
theorem PointSlot.Moves.freed {f : Port → Bool} {r r' : PointSlot} (h : r.Moves f r')
    (hr : r.state = .free → r = PointSlot.freed r.gen) (hfree : r'.state = .free) :
    r' = PointSlot.freed r'.gen ∧ (r.state = .free → r' = r) := by
  cases h with
  | evolves _ he =>
    have e := he.freed _ (hr (he.state ▸ hfree))
    exact ⟨by rw [e]; exact hr (he.state ▸ hfree), fun _ => e⟩
  | claims c hd => exact absurd (hd.symm.trans hfree) (by decide)
  | links l hl =>
    rcases hl with hd | hl
    · exact absurd (hd.symm.trans hfree) (by decide)
    · rw [hr hfree] at hl
      exact absurd rfl hl
  | defined key cfg => cases hfree
  | retired hd => exact ⟨rfl, fun e => absurd (hd.symm.trans e) (by decide)⟩

/-- R27: a claim of the record is one that stood or one of an ATTACHED port, on a DEFINED point. -/
theorem PointSlot.Moves.claim {f : Port → Bool} {r r' : PointSlot} (h : r.Moves f r') (c : Claim)
    (hc : r'.claim = some c) : (r.claim = some c ∧ r'.state = r.state) ∨ (r'.state = .defined ∧ f c.owner = true) := by
  cases h with
  | evolves _ he =>
    rcases he.claim with e | e
    · rw [e] at hc
      cases hc
    · exact .inl ⟨e ▸ hc, he.state⟩
  | claims c' hd ha =>
    cases hc
    exact .inr ⟨hd, ha⟩
  | links l => exact .inl ⟨hc, rfl⟩
  | defined key cfg => cases hc
  | retired => cases hc

theorem reset_inRange : PointConfig.reset.InRange := ⟨by decide, by simp [PointConfig.reset]⟩

theorem PointSlot.freed_legal (g : Generation) : (PointSlot.freed g).Legal :=
  ⟨reset_inRange, rfl, by simp [PointSlot.freed], by simp [PointSlot.freed], by simp [PointSlot.freed],
    by simp [PointSlot.freed]⟩

/-- R5, R9, R27, R94, R97 of one record. -/
theorem PointSlot.Moves.legal {f : Port → Bool} {r r' : PointSlot} (h : r.Moves f r') (hr : r.Legal) : r'.Legal := by
  cases h with
  | evolves _ he => exact he.legal hr
  | claims c hd ha hs =>
    exact ⟨hr.inRange, hr.limits, fun c' hc' => by cases hc'; exact hs hr, hr.count, hr.confirm, hr.condition⟩
  | links l => exact ⟨hr.inRange, hr.limits, hr.staged, hr.count, hr.confirm, hr.condition⟩
  | defined key cfg h hcfg hlim =>
    exact ⟨hcfg, hlim, by simp [PointSlot.fresh, PointSlot.freed], by simp [PointSlot.fresh, PointSlot.freed],
      by simp [PointSlot.fresh, PointSlot.freed], by simp [PointSlot.fresh, PointSlot.freed]⟩
  | retired => exact PointSlot.freed_legal _

theorem Move.legal {s u : State} (hm : Move s u) (h : ∀ i, (s.slot i).Legal) (i : SlotNo) : (u.slot i).Legal :=
  (hm.pointMoves i).legal (h i)

/-! ## Sessions, notices and pins (R109, R110, R122, R151) -/

/-- A session lasts through every move but its end. -/
theorem Move.attached {s u : State} (hm : Move s u) (q : Port) (hq : s.attached q = true) :
    u.attached q = true ∨ u = s.sessionEnded q := by
  have same (h : (u.port q).session = (s.port q).session) : u.attached q = true := by
    rw [State.attached_iff] at hq ⊢
    rw [h, hq]
  cases hm with
  | rest _ hs => exact .inl (same (hs.sessions q))
  | attach p r hr =>
    left
    rw [State.attached_iff, State.port_setPort]
    split
    next => exact hr
    next => exact (State.attached_iff s q).1 hq
  | sessionEnds p =>
    by_cases h : p = q
    · exact .inr (by rw [h])
    · left
      rw [State.attached_iff, State.sessionEnded_port, if_neg h]
      exact (State.attached_iff s q).1 hq
  | retire i => exact .inl (same (by rw [(State.retire_retired s i).ports]))
  | drive a =>
    obtain ⟨-, -, -, -, -, -, -, -, -, -, hH, hL⟩ := State.useBudget_same s a
    exact .inl (same (by cases q <;> simp [hH, hL]))
  | sched _ hs => exact .inl (same (hs.samePoints.sessions q))
  | _ => exact .inl (same (by cases q <;> rfl))

theorem Move.claimLaw {s u : State} (hm : Move s u) (h : ClaimLaw s) : ClaimLaw u := by
  intro i c hc
  have hkept : (s.slot i).claim = some c → s.attached c.owner = true → u.attached c.owner = true := by
    intro hsc ha
    rcases hm.attached _ ha with hu | rfl
    · exact hu
    · rw [State.sessionEnded_slot, PointSlot.withoutClaim, if_pos (by simp [hsc])] at hc
      cases hc
  rcases (hm.pointMoves i).claim c hc with ⟨hsc, hstate⟩ | ⟨hstate, ha⟩
  · obtain ⟨hd, ha⟩ := h i c hsc
    exact ⟨hstate.trans hd, hkept hsc ha⟩
  · refine ⟨hstate, ?_⟩
    rcases hm.attached _ ha with hu | rfl
    · exact hu
    · rw [State.sessionEnded_slot, PointSlot.withoutClaim] at hc
      split at hc
      next => cases hc
      next hne => exact absurd (by simp [hc]) hne

theorem Move.pinLaw {s u : State} (hm : Move s u) (h : PinLaw s) : PinLaw u := by
  intro o q hq
  have hkept (hs : (s.output o).pin = some q) : u.attached q = true := by
    rcases hm.attached _ (h o q hs) with hu | rfl
    · exact hu
    · rw [State.sessionEnded_output, OutputChannel.releasePin, if_pos hs] at hq
      split at hq <;> cases hq
  cases hm with
  | rest _ hs => exact hkept (hs.pins o ▸ hq)
  | pin o' r hr =>
    rw [State.output_setOutput] at hq
    split at hq
    next =>
      have := hr q hq
      rwa [State.attached_iff] at this ⊢
    next => exact hkept hq
  | sessionEnds p =>
    refine hkept ?_
    rw [State.sessionEnded_output, OutputChannel.releasePin] at hq
    split at hq
    next => split at hq <;> cases hq
    next => exact hq
  | retire i => exact hkept (by rwa [(State.retire_retired s i).pins] at hq)
  | drive a => exact hkept (by rwa [State.useBudget_output] at hq)
  | sched _ hs => exact hkept (hs.samePoints.pins o ▸ hq)
  | attach p r => exact hkept (by rwa [State.setPort_output] at hq)
  | _ => exact hkept hq

theorem State.NoticeLegal.congr {s u : State} {i : SlotNo} {n : Notice} (h : s.NoticeLegal i n)
    (hnames : (u.slot i).state = (s.slot i).state ∧ (u.slot i).gen = (s.slot i).gen)
    (ha : ∀ p, s.attached p = true → u.attached p = true) : u.NoticeLegal i n := by
  obtain ⟨h1, h2, h3⟩ := h
  refine ⟨?_, h2, ?_⟩
  · rw [State.names_iff] at h1 ⊢
    rwa [hnames.1, hnames.2]
  · revert h3
    cases n.state with
    | pending => exact id
    | delivered p => exact ha p

/-- R131: a notice returned by the end of its port's session is PENDING, with its follow-on folded in. -/
theorem State.NoticeLegal.returnFrom {s : State} {i : SlotNo} {n : Notice} (h : s.NoticeLegal i n) (p : Port) :
    (s.sessionEnded p).NoticeLegal i (n.returnFrom p) := by
  obtain ⟨hnames, hcount, hstate⟩ := h
  have hnames' : (s.sessionEnded p).names i n.gen = true := by
    have he := PointSlot.evolves_withoutClaim (s.slot i) p
    rw [State.names_iff] at hnames ⊢
    rw [State.sessionEnded_slot, he.state, he.gen]
    exact hnames
  unfold Notice.returnFrom
  split
  next =>
    split
    next hf => exact ⟨hnames', hcount, hf⟩
    next f _ => exact ⟨hnames', ⟨by simp [Notice.fold], by simp [Notice.fold]⟩, rfl⟩
  next hne =>
    refine ⟨hnames', hcount, ?_⟩
    revert hstate hne
    cases n.state with
    | pending => exact fun h _ => h
    | delivered q =>
      intro (ha : s.attached q = true) hne
      change (s.sessionEnded p).attached q = true
      have hpq : p ≠ q := fun e => hne (by rw [e])
      rw [State.attached_iff] at ha ⊢
      rwa [State.sessionEnded_port, if_neg hpq]

theorem Move.noticeLaw {s u : State} (hm : Move s u) (hfree : FreeSlotLaw s) (h : NoticeLaw s) : NoticeLaw u := by
  intro i n hn
  have hkept (hs : s.notice i = some n)
      (hnames : (u.slot i).state = (s.slot i).state ∧ (u.slot i).gen = (s.slot i).gen)
      (ha : ∀ p, s.attached p = true → u.attached p = true) : u.NoticeLegal i n :=
    State.NoticeLegal.congr (h i n hs) hnames ha
  have hsame (hp : ∀ p, (u.port p).session = (s.port p).session) (p : Port) (ha : s.attached p = true) :
      u.attached p = true := by
    rw [State.attached_iff] at ha ⊢
    rw [hp, ha]
  have hport (hH : u.portH = s.portH) (hL : u.portL = s.portL) (p : Port) : (u.port p).session = (s.port p).session := by
    cases p <;> simp [hH, hL]
  have hpoints (hs : s.SamePoints u) : u.NoticeLegal i n :=
    hkept (hs.notices i ▸ hn) ⟨(hs.slots i).state, (hs.slots i).gen⟩ (hsame hs.sessions)
  have one (j : SlotNo) (r : PointSlot) (h1 : r.state = (s.slot j).state) (h2 : r.gen = (s.slot j).gen) :
      ((s.setSlot j r).slot i).state = (s.slot i).state ∧ ((s.setSlot j r).slot i).gen = (s.slot i).gen := by
    rw [State.slot_setSlot]
    split
    next e => exact e ▸ ⟨h1, h2⟩
    next => exact ⟨rfl, rfl⟩
  cases hm with
  | rest _ hs => exact hpoints hs.samePoints
  | slot j r hr => exact hpoints (State.samePoints_setSlot s j r hr)
  | sched _ hs => exact hpoints hs.samePoints
  | claim j c => exact hkept hn (one j _ rfl rfl) (hsame (hport rfl rfl))
  | notice j m _ hlegal =>
    rw [State.notice_setNotice] at hn
    split at hn
    next e =>
      subst e
      exact (hlegal (State.defined_of_live hfree j) (h j) n hn).congr ⟨rfl, rfl⟩ (hsame (hport rfl rfl))
    next => exact hkept hn ⟨rfl, rfl⟩ (hsame (hport rfl rfl))
  | pin o r => exact hkept hn ⟨rfl, rfl⟩ (hsame (hport rfl rfl))
  | attach p r hr =>
    refine hkept (by simpa using hn) (by simp) fun q hq => ?_
    rw [State.attached_iff] at hq ⊢
    rw [State.port_setPort]
    split
    next => exact hr
    next => exact hq
  | sessionEnds p =>
    rw [State.sessionEnded_notice] at hn
    obtain ⟨m, hm, rfl⟩ := Option.map_eq_some_iff.1 hn
    exact State.NoticeLegal.returnFrom (h i m hm) p
  | define j key cfg hj =>
    have hne : j ≠ i := by
      rintro rfl
      have := (State.names_iff s j n.gen).1 (h j n hn).1
      exact absurd (hj.symm.trans this.1) (by decide)
    exact hkept hn (by rw [State.setKeyMap_slot, State.slot_setSlot_ne _ _ _ _ hne]; exact ⟨rfl, rfl⟩)
      (hsame (hport rfl rfl))
  | retire j =>
    have hu := State.retire_retired s j
    rw [hu.notices] at hn
    split at hn
    next => cases hn
    next hne => exact hkept hn (by rw [hu.slots, if_neg hne]; exact ⟨rfl, rfl⟩) (hsame fun p => by rw [hu.ports])
  | link j a => exact hkept hn (one j _ rfl rfl) (hsame (hport rfl rfl))
  | unlink j a => exact hkept hn (one j _ rfl rfl) (hsame (hport rfl rfl))
  | drive a =>
    obtain ⟨-, -, -, -, -, -, -, h8, -, -, hH, hL⟩ := State.useBudget_same s a
    refine hkept (by simpa only [State.notice, h8] using hn) ?_ (hsame (hport hH hL))
    rcases useBudget_link s a i with e | ⟨-, e⟩ <;> rw [e] <;> exact ⟨rfl, rfl⟩
  | action a r => exact hkept hn ⟨rfl, rfl⟩ (hsame (hport rfl rfl))

theorem Move.freeSlotLaw {s u : State} (hm : Move s u) (h : FreeSlotLaw s) : FreeSlotLaw u := by
  intro i hi
  refine ⟨((hm.pointMoves i).freed (fun e => (h i e).1) hi).1, ?_⟩
  have hkept (hstate : (u.slot i).state = (s.slot i).state) (hn : u.notice i = s.notice i) : u.notice i = none :=
    hn.trans (h i (hstate ▸ hi)).2
  have one (j : SlotNo) (r : PointSlot) (h1 : r.state = (s.slot j).state) :
      ((s.setSlot j r).slot i).state = (s.slot i).state := by
    rw [State.slot_setSlot]
    split
    next e => exact e ▸ h1
    next => rfl
  cases hm with
  | rest _ hs => exact hkept (hs.samePoints.slots i).state (hs.samePoints.notices i)
  | slot j r hr => exact hkept (one j r hr.state) rfl
  | sched _ hs => exact hkept (hs.samePoints.slots i).state (hs.samePoints.notices i)
  | claim j c => exact hkept (one j _ rfl) rfl
  | notice j m hfree =>
    rw [State.notice_setNotice]
    split
    next e => exact hfree (fun hl => hl (h j (e ▸ hi)).1) (h j (e ▸ hi)).2
    next => exact (h i hi).2
  | pin o r => exact hkept rfl rfl
  | attach p r => exact hkept (by simp) (by simp)
  | sessionEnds p =>
    rw [State.sessionEnded_slot, (PointSlot.evolves_withoutClaim _ p).state] at hi
    rw [State.sessionEnded_notice, (h i hi).2, Option.map_none]
  | define j key cfg =>
    rw [State.setKeyMap_slot, State.slot_setSlot] at hi
    split at hi
    next => cases hi
    next => exact (h i hi).2
  | retire j =>
    have hu := State.retire_retired s j
    rw [hu.notices]
    split
    next => rfl
    next hne =>
      rw [hu.slots, if_neg hne] at hi
      exact (h i hi).2
  | link j a => exact hkept (one j _ rfl) rfl
  | unlink j a => exact hkept (one j _ rfl) rfl
  | drive a =>
    obtain ⟨-, -, -, -, -, -, -, h8, -⟩ := State.useBudget_same s a
    refine hkept ?_ (by simp only [State.notice, h8])
    rcases useBudget_link s a i with e | ⟨-, e⟩ <;> rw [e]
  | action a r => exact hkept rfl rfl

/-! ## Link counts (R134, R135) -/

/-- A count over a list without repetitions goes up by one where one more element meets the test. -/
theorem countP_add_one {α : Type} [DecidableEq α] {l : List α} (hl : l.Nodup) {i : α} (hi : i ∈ l) {f g : α → Bool}
    (h : ∀ j, j ≠ i → g j = f j) (hf : f i = false) (hg : g i = true) : l.countP g = l.countP f + 1 := by
  induction l with
  | nil => cases hi
  | cons a l ih =>
    rw [List.nodup_cons] at hl
    by_cases ha : a = i
    · subst ha
      have : l.countP g = l.countP f := List.countP_congr fun j hj => by rw [h j fun e => hl.1 (e ▸ hj)]
      simp [hf, hg, this]
    · have := ih hl.2 ((List.mem_cons.1 hi).resolve_left (Ne.symm ha))
      simp only [List.countP_cons, h a ha, this]
      omega

namespace State

theorem linkedPoints_congr {s u : State} (a : ActionNo)
    (h : ∀ i, (u.slot i).link = some a ↔ (s.slot i).link = some a) : u.linkedPoints a = s.linkedPoints a :=
  List.countP_congr fun i _ => by simpa using h i

theorem linkedPoints_add_one {s u : State} (a : ActionNo) (i : SlotNo) (h : ∀ j, j ≠ i → (u.slot j).link = (s.slot j).link)
    (hs : (s.slot i).link ≠ some a) (hu : (u.slot i).link = some a) : u.linkedPoints a = s.linkedPoints a + 1 :=
  countP_add_one (List.nodup_finRange 128) (List.mem_finRange i) (fun j hj => by rw [h j hj]) (by simpa using hs)
    (by simpa using hu)

/-- A point that loses its link is one fewer of its action's and the same for the others. -/
theorem linkedPoints_unlinked {s u : State} {a : ActionNo} {i : SlotNo} (hs : (s.slot i).link = some a)
    (hu : (u.slot i).link = none) (h : ∀ j, j ≠ i → (u.slot j).link = (s.slot j).link) (b : ActionNo) :
    u.linkedPoints b = if a = b then s.linkedPoints b - 1 else s.linkedPoints b := by
  split
  next e =>
    subst e
    have := linkedPoints_add_one (s := u) (u := s) a i (fun j hj => (h j hj).symm) (by simp [hu]) hs
    omega
  next hne =>
    refine linkedPoints_congr b fun j => ?_
    by_cases hj : j = i
    · simp [hj, hs, hu, hne]
    · rw [h j hj]

theorem linkedPoints_pos {s : State} {a : ActionNo} {i : SlotNo} (hs : (s.slot i).link = some a) :
    0 < s.linkedPoints a :=
  List.countP_pos_iff.2 ⟨i, List.mem_finRange i, by simp [hs]⟩

end State

/-- A record that loses a link stays legal: one with links is ARMED. -/
theorem ActionRec.Legal.unlinked {r : ActionRec} (h : r.Legal) : { r with linkCount := r.linkCount - 1 }.Legal := by
  revert h
  simp only [ActionRec.Legal]
  cases r.state with
  | armed => exact id
  | free => exact fun h => ⟨by simp [h.1], h.2⟩
  | spent => exact fun h => ⟨by simp [h.1], h.2⟩

/-- The link of one point taken back from its action keeps the counts (R21, R138). -/
theorem ActionLaw.unlinked {s u : State} (h : ActionLaw s) {a : ActionNo} {i : SlotNo} (hs : (s.slot i).link = some a)
    (hu : (u.slot i).link = none) (hother : ∀ j, j ≠ i → (u.slot j).link = (s.slot j).link)
    (hact : ∀ b, u.action b = if a = b then { s.action b with linkCount := (s.action b).linkCount - 1 } else s.action b) :
    ActionLaw u := by
  rw [actionLaw_iff] at h ⊢
  intro b
  rw [hact, State.linkedPoints_unlinked hs hu hother]
  split
  next => exact ⟨by simp [(h b).1], (h b).2.unlinked⟩
  next => exact h b

theorem ActionLaw.congr {s u : State} (h : ActionLaw s) (hact : ∀ a, u.action a = s.action a)
    (hlink : ∀ i, (u.slot i).link = (s.slot i).link) : ActionLaw u := by
  rw [actionLaw_iff] at h ⊢
  intro a
  rw [hact, State.linkedPoints_congr (s := s) (u := u) a fun i => by rw [hlink]]
  exact h a

/-- R145, R146: a drive uses budget; the last unit spends the action and takes every link to it. -/
theorem ActionLaw.useBudget {s : State} (h : ActionLaw s) (a : ActionNo) (ha : (s.action a).state = .armed) :
    ActionLaw (s.useBudget a) := by
  rw [actionLaw_iff] at h ⊢
  intro b
  rcases Nat.lt_or_ge 1 (s.action a).budget with hb | hb
  · rw [State.useBudget_left s a hb, State.action_setAction]
    have hlinks : (s.setAction a { s.action a with budget := (s.action a).budget - 1 }).linkedPoints b =
        s.linkedPoints b := State.linkedPoints_congr b fun _ => Iff.rfl
    rw [hlinks]
    split
    next e =>
      subst e
      have := (h a).2
      simp only [ActionRec.Legal, ha] at this ⊢
      exact ⟨(h a).1, by omega, by omega⟩
    next => exact h b
  · rw [State.useBudget_spent s a hb, State.action_setAction]
    split
    next e =>
      subst e
      refine ⟨?_, rfl, rfl⟩
      symm
      refine List.countP_eq_zero.2 fun i _ => ?_
      rw [State.setAction_slot, State.clearLinks_slot]
      split <;> simp_all
    next hne =>
      rw [State.linkedPoints_congr (s := s) b fun i => ?_]
      · exact h b
      · rw [State.setAction_slot, State.clearLinks_slot]
        split <;> simp_all

theorem Move.actionLaw {s u : State} (hm : Move s u) (hfree : FreeSlotLaw s) (h : ActionLaw s) : ActionLaw u := by
  have one (j : SlotNo) (r : PointSlot) (h1 : r.link = (s.slot j).link) (i : SlotNo) :
      ((s.setSlot j r).slot i).link = (s.slot i).link := by
    rw [State.slot_setSlot]
    split
    next e => exact e ▸ h1
    next => rfl
  have hpoints (hs : s.SamePoints u) : ActionLaw u := h.congr hs.actions fun i => (hs.slots i).link
  cases hm with
  | rest _ hs => exact hpoints hs.samePoints
  | slot j r hr => exact h.congr (fun _ => rfl) (one j r hr.link)
  | sched _ hs => exact hpoints hs.samePoints
  | claim j c => exact h.congr (fun _ => rfl) (one j _ rfl)
  | notice j m => exact h
  | pin o r => exact h
  | attach p r => exact h.congr (by simp) (by simp)
  | sessionEnds p =>
    refine h.congr (by simp) fun i => ?_
    rw [State.sessionEnded_slot, (PointSlot.evolves_withoutClaim _ p).link]
  | define j key cfg hj =>
    refine h.congr (fun _ => rfl) (one j _ ?_)
    rw [(hfree j hj).1]
    rfl
  | retire j =>
    have hu := State.retire_retired s j
    cases hl : (s.slot j).link with
    | none =>
      refine h.congr (fun a => by simp [hu.actions, hl]) fun i => ?_
      rw [hu.slots]
      split
      next e => rw [← e, hl]; rfl
      next => rfl
    | some a =>
      refine h.unlinked hl (by rw [hu.slots, if_pos rfl]; rfl) (fun i hi => by rw [hu.slots, if_neg (Ne.symm hi)])
        fun b => ?_
      rw [hu.actions, hl]
      simp
  | link j a hj ha hl =>
    rw [actionLaw_iff] at h ⊢
    intro b
    rw [State.action_setAction]
    split
    next e =>
      subst e
      refine ⟨?_, by simpa [ActionRec.Legal, ha] using (h a).2⟩
      rw [State.linkedPoints_add_one (s := s) a j (fun i hi => by simp [State.slot_setSlot_ne _ _ _ _ (Ne.symm hi)])
        (by simp [hl]) (by simp), (h a).1]
    next hne =>
      rw [State.linkedPoints_congr (s := s) b fun i => ?_]
      · exact h b
      · rw [State.setAction_slot, State.slot_setSlot]
        split
        next e => simp [← e, hl, hne]
        next => rfl
  | unlink j a hl =>
    refine h.unlinked hl (by simp [State.unlink]) (fun i hi => ?_) fun b => ?_
    · simp [State.unlink, State.slot_setSlot_ne _ _ _ _ (Ne.symm hi)]
    · rw [State.unlink, State.action_setAction]
      split
      next e => rw [e]; rfl
      next => rfl
  | drive a ha => exact h.useBudget a ha
  | action a r hr =>
    rw [actionLaw_iff] at h ⊢
    intro b
    obtain ⟨hlegal, hcount⟩ := hr (h a).2
    have hlinks : (s.setAction a r).linkedPoints b = s.linkedPoints b := State.linkedPoints_congr b fun _ => Iff.rfl
    rw [hlinks, State.action_setAction]
    split
    next e =>
      subst e
      exact ⟨hcount.trans (h a).1, hlegal⟩
    next => exact h b

end Sys2Proof.Machine
end

section
/-! SUPPORT. The condition evaluator said by its writes: what a commit and an applied sample write of the point's record at
once (R34 to R36, R90, R91), and that the evaluator neither reads nor writes the parts that the ports, the scheduler and
the converter own. -/

namespace Sys2Proof.Machine
namespace State

/-! ## The parts that the evaluator neither reads nor writes -/

/-- The points, notices, actions and outputs of `s` beside all the other parts of `u`. -/
def beside (s u : State) : State :=
  { u with slots := s.slots, notices := s.notices, raiseSeq := s.raiseSeq, actions := s.actions, outputs := s.outputs }

theorem beside_self (s : State) : s.beside s = s := rfl

theorem beside_setSlot (s u : State) (i : SlotNo) (r : PointSlot) :
    (s.beside u).setSlot i r = (s.setSlot i r).beside u := rfl

theorem beside_raise (s u : State) (i : SlotNo) (cause : Cause) (x : Condition) :
    (s.beside u).raise i cause x = (s.raise i cause x).beside u := by
  have hn : (s.beside u).notice i = s.notice i := rfl
  unfold raise
  rw [hn]
  cases s.notice i with
  | none => rfl
  | some n => cases n with | mk _ _ _ _ _ _ state _ => cases state <;> rfl

theorem beside_followWithdraw (s u : State) (i : SlotNo) :
    (s.beside u).followWithdraw i = ((s.followWithdraw i).1.beside u, (s.followWithdraw i).2) := by
  have hn : (s.beside u).notice i = s.notice i := rfl
  unfold followWithdraw
  rw [hn]
  cases s.notice i with
  | none => rfl
  | some n =>
    simp only
    split
    next => split <;> rfl
    next =>
      split
      next => rfl
      next => split <;> rfl

theorem beside_staleWithdraw (s u : State) (i : SlotNo) :
    (s.beside u).staleWithdraw i = (s.staleWithdraw i).beside u := by
  have hn : (s.beside u).notice i = s.notice i := rfl
  unfold staleWithdraw
  rw [hn]
  cases s.notice i with
  | none => rfl
  | some n =>
    simp only
    split <;> rfl

theorem beside_useBudget (s u : State) (a : ActionNo) : (s.beside u).useBudget a = (s.useBudget a).beside u := by
  have ha : (s.beside u).action a = s.action a := rfl
  unfold useBudget
  rw [ha]
  split <;> rfl

theorem beside_invoke (s u : State) (a : ActionNo) (i : SlotNo) :
    (s.beside u).invoke a i = ((s.invoke a i).1.beside u, (s.invoke a i).2) := by
  have ha : (s.beside u).action a = s.action a := rfl
  have ho : (s.beside u).output (s.action a).output = s.output (s.action a).output := rfl
  unfold invoke
  rw [ha, ho]
  split
  next => rfl
  next =>
    have h : ∀ o r, (s.beside u).setOutput o r = (s.setOutput o r).beside u := fun _ _ => rfl
    rw [h, beside_useBudget]

theorem beside_offerRestore (s u : State) (a : ActionNo) (i : SlotNo) :
    (s.beside u).offerRestore a i = (s.offerRestore a i).beside u := by
  have ha : (s.beside u).action a = s.action a := rfl
  have ho : (s.beside u).output (s.action a).output = s.output (s.action a).output := rfl
  unfold offerRestore
  simp only [ha, ho]
  split
  next => rfl
  next =>
    split
    next => split <;> rfl
    next => rfl

theorem beside_invokeOnEntry (s u : State) (i : SlotNo) (x : Condition) :
    (s.beside u).invokeOnEntry i x = ((s.invokeOnEntry i x).1.beside u, (s.invokeOnEntry i x).2) := by
  have hs : (s.beside u).slot i = s.slot i := rfl
  unfold invokeOnEntry
  rw [hs]
  cases (s.slot i).link with
  | none => rfl
  | some a =>
    have ha : (s.beside u).action a = s.action a := rfl
    simp only [ha]
    split
    next => exact beside_invoke s u a i
    next => rfl

theorem beside_entryRaises (s u : State) (i : SlotNo) (x : Condition) (o : InvokeOutcome) (c : Option Cause) :
    (s.beside u).entryRaises i x o c = (s.entryRaises i x o c).beside u := by
  unfold entryRaises
  have h : (if o = .suppressed then s.beside u else (s.beside u).raise i .entered x) =
      (if o = .suppressed then s else s.raise i .entered x).beside u := by
    split
    next => rfl
    next => rw [beside_raise]
  simp only [h]
  cases c with
  | none => rfl
  | some cause => exact beside_raise ..

theorem beside_enterCondition (s u : State) (i : SlotNo) (x : Condition) :
    (s.beside u).enterCondition i x = (s.enterCondition i x).beside u := by
  simp only [enterCondition, beside_invokeOnEntry, beside_entryRaises]

theorem beside_returnNotices (s u : State) (i : SlotNo) :
    (s.beside u).returnNotices i = (s.returnNotices i).beside u := by
  have hs : (s.beside u).slot i = s.slot i := rfl
  have h : (if (s.slot i).cfg.policy = .follow then (s.beside u).followWithdraw i else (s.beside u, false)) =
      ((if (s.slot i).cfg.policy = .follow then s.followWithdraw i else (s, false)).1.beside u,
        (if (s.slot i).cfg.policy = .follow then s.followWithdraw i else (s, false)).2) := by
    split
    next => rw [beside_followWithdraw]
    next => rfl
  unfold returnNotices
  simp only [hs, h]
  generalize (if (s.slot i).cfg.policy = .follow then s.followWithdraw i else (s, false)) = r
  split
  next => rfl
  next =>
    split
    next => exact beside_raise ..
    next => rfl

theorem beside_returnToNormal (s u : State) (i : SlotNo) :
    (s.beside u).returnToNormal i = (s.returnToNormal i).beside u := by
  have hs : (s.beside u).slot i = s.slot i := rfl
  unfold returnToNormal
  rw [hs]
  cases (s.slot i).link with
  | none => exact beside_returnNotices s u i
  | some a => simp only [beside_returnNotices, beside_offerRestore]

/-- The evaluator's change of a condition neither reads nor writes the other parts (R98 to R103). -/
theorem beside_changeCondition (s u : State) (i : SlotNo) (x : Condition) :
    (s.beside u).changeCondition i x = (s.changeCondition i x).beside u := by
  have hs : (s.beside u).slot i = s.slot i := rfl
  unfold changeCondition
  simp only [hs, beside_setSlot]
  cases x with
  | normal => exact beside_returnToNormal ..
  | _ => exact beside_enterCondition ..

theorem beside_confirm (s u : State) (i : SlotNo) (x : Condition) :
    (s.beside u).confirm i x = (s.confirm i x).beside u := by
  have hs : (s.beside u).slot i = s.slot i := rfl
  have hc : (s.beside u).nextCount i x = s.nextCount i x := rfl
  unfold confirm
  simp only [hs, hc, beside_setSlot, beside_changeCondition]
  split
  next => rfl
  next => split <;> rfl

theorem beside_qualityNotices (s u : State) (i : SlotNo) (before : Quality) :
    (s.beside u).qualityNotices i before = (s.qualityNotices i before).beside u := by
  have hs : (s.beside u).slot i = s.slot i := rfl
  have h : (if before = .stale ∧ (s.slot i).cfg.policy = .follow then (s.beside u).staleWithdraw i else s.beside u) =
      (if before = .stale ∧ (s.slot i).cfg.policy = .follow then s.staleWithdraw i else s).beside u := by
    split
    next => rw [beside_staleWithdraw]
    next => rfl
  unfold qualityNotices
  simp only [hs, h]
  generalize (if before = .stale ∧ (s.slot i).cfg.policy = .follow then s.staleWithdraw i else s) = v
  have hv : (v.beside u).slot i = v.slot i := rfl
  rw [hv]
  split
  next => exact beside_raise ..
  next => rfl

/-! ## An applied sample, as one write of the point's record before its notices (R89 to R91) -/

theorem clippedFlag_iff (raw : RawReading) : clippedFlag raw = true ↔ raw = 0 ∨ raw = 16383 := by
  simp [clippedFlag]

/-- Whether a point is listed in an active class depends on the classes and its generation alone. -/
theorem listedActive_congr {s u : State} (i : SlotNo) (hclasses : u.classes = s.classes)
    (hgen : (u.slot i).gen = (s.slot i).gen) : u.listedActive i = s.listedActive i := by
  have hcls : ∀ c, u.cls c = s.cls c := fun c => by simp only [cls, hclasses]
  simp only [listedActive, membership, hcls, hgen]

theorem listedActive_setSlot (s : State) (i : SlotNo) (r : PointSlot) (hgen : r.gen = (s.slot i).gen) :
    (s.setSlot i r).listedActive i = s.listedActive i :=
  listedActive_congr (s := s) i rfl (by rw [slot_setSlot_self, hgen])

/-- The stale timer of a point after a sample (R91). -/
def sampleTimer (s : State) (i : SlotNo) : Option Nat :=
  if s.listedActive i = true ∧ (s.slot i).cfg.staleInterval.isSome then
    (s.slot i).cfg.staleInterval.map fun ms => s.now + ms * 1000
  else (s.slot i).staleTimer

/-- A point's record as an applied sample writes it before its notices are settled (R90, R91). -/
def sampledSlot (s : State) (i : SlotNo) (raw : RawReading) : PointSlot :=
  { s.slot i with
    raw := raw
    value := scaleValue (s.slot i).cfg.scale raw
    sampleSeq := (s.slot i).sampleSeq + 1
    staleTimer := s.sampleTimer i
    quality := if raw = 0 ∨ raw = 16383 then .clipped else .good }

theorem restartOnSample_sampled (s : State) (i : SlotNo) (raw : RawReading) :
    (s.setSlot i ((s.slot i).sampled raw)).restartOnSample i = s.setSlot i (s.sampledSlot i raw) := by
  have hlisted := listedActive_setSlot s i ((s.slot i).sampled raw) rfl
  have hquality : (if clippedFlag raw = true then Quality.clipped else .good) =
      if raw = 0 ∨ raw = 16383 then .clipped else .good := if_congr (clippedFlag_iff raw) rfl rfl
  unfold restartOnSample sampledSlot sampleTimer
  rw [hlisted, ← hquality]
  split
  next h =>
    rw [startTimer_eq, slot_setSlot_self, setSlot_setSlot]
    cases hms : (s.slot i).cfg.staleInterval with
    | none => simp [PointSlot.sampled, hms]
    | some ms => simp [PointSlot.sampled, hms, h]
  next h => simp [PointSlot.sampled, h]

theorem staleWithdraw_frame (s : State) (i : SlotNo) : ∃ n, s.staleWithdraw i = s.setNotice i n := by
  unfold staleWithdraw
  cases h : s.notice i with
  | none => exact ⟨none, by simp [← h, setNotice, notice]⟩
  | some n =>
    have hs : s = s.setNotice i (some n) := by simp [← h, setNotice, notice]
    simp only
    split
    next => exact ⟨none, rfl⟩
    next => exact ⟨some n, hs⟩

/-- The quality's notices change no point and no part that the evaluator never writes (R92). -/
theorem qualityNotices_points (s : State) (i : SlotNo) (before : Quality) :
    SameButPoints s (s.qualityNotices i before) ∧ ∀ j, (s.qualityNotices i before).slot j = s.slot j := by
  have hw : SameButPoints s (if before = .stale ∧ (s.slot i).cfg.policy = .follow then s.staleWithdraw i else s) ∧
      ∀ j, (if before = .stale ∧ (s.slot i).cfg.policy = .follow then s.staleWithdraw i else s).slot j = s.slot j := by
    obtain ⟨n, h⟩ := staleWithdraw_frame s i
    rw [h]
    split
    next => exact ⟨SameButPoints.refl s, fun _ => rfl⟩
    next => exact ⟨SameButPoints.refl s, fun _ => rfl⟩
  unfold qualityNotices
  simp only
  generalize (if before = .stale ∧ (s.slot i).cfg.policy = .follow then s.staleWithdraw i else s) = w at hw ⊢
  split
  next => exact ⟨hw.1.trans (raise_points ..), fun j => by rw [raise_slot, hw.2]⟩
  next => exact hw

/-- R89: the application of a sample writes the record, settles the quality's notices and confirms the candidate. -/
theorem applySample_eq (s : State) (i : SlotNo) (raw : RawReading) : s.applySample i raw =
    ((s.setSlot i (s.sampledSlot i raw)).qualityNotices i (s.slot i).quality).confirm i
      (candidate (s.slot i).cfg (s.slot i).condition (scaleValue (s.slot i).cfg.scale raw)) := by
  unfold applySample
  simp only [restartOnSample_sampled, (qualityNotices_points _ _ _).2, slot_setSlot_self]
  rfl

/-- What the confirmation machine leaves of the points: it writes the point's condition and pending state, and beside them
only links to a spent action go (R97, R146). -/
theorem confirm_points (s : State) (i : SlotNo) (x : Condition) : SameButPoints s (s.confirm i x) ∧
    (∀ j, j ≠ i → ∃ l, (s.confirm i x).slot j = { s.slot j with link := l }) ∧
    ∃ l cond cand n, (s.confirm i x).slot i =
        { s.slot i with link := l, condition := cond, pendingCandidate := cand, pendingCount := n } ∧
      (cond = (s.slot i).condition ∨ cond = x) := by
  have one (r : PointSlot) : SameButPoints s (s.setSlot i r) ∧
      ∀ j, j ≠ i → ∃ l, (s.setSlot i r).slot j = { s.slot j with link := l } :=
    ⟨SameButPoints.refl s, fun j hj => ⟨(s.slot j).link, by rw [slot_setSlot_ne _ _ _ _ (Ne.symm hj)]⟩⟩
  unfold confirm
  split
  next => exact ⟨(one _).1, (one _).2, _, _, _, _, slot_setSlot_self .., .inl rfl⟩
  next =>
    split
    next =>
      obtain ⟨hsame, hslot⟩ := changeCondition_points
        (s.setSlot i { s.slot i with pendingCandidate := none, pendingCount := 0 }) i x
      refine ⟨hsame, fun j hj => ?_, ?_⟩
      · obtain ⟨l, h⟩ := hslot j
        rw [if_neg hj, slot_setSlot_ne _ _ _ _ (Ne.symm hj)] at h
        exact ⟨l, h⟩
      · obtain ⟨l, h⟩ := hslot i
        rw [if_pos rfl, slot_setSlot_self] at h
        exact ⟨l, x, none, 0, h, .inr rfl⟩
    next => exact ⟨(one _).1, (one _).2, _, _, _, _, slot_setSlot_self .., .inl rfl⟩

/-- What an applied sample leaves of the points (R90, R97, R146). -/
theorem applySample_points (s : State) (i : SlotNo) (raw : RawReading) : SameButPoints s (s.applySample i raw) ∧
    (∀ j, j ≠ i → ∃ l, (s.applySample i raw).slot j = { s.slot j with link := l }) ∧
    ∃ l cond cand n, (s.applySample i raw).slot i =
        { s.sampledSlot i raw with link := l, condition := cond, pendingCandidate := cand, pendingCount := n } ∧
      (cond = (s.slot i).condition ∨
        cond = candidate (s.slot i).cfg (s.slot i).condition (scaleValue (s.slot i).cfg.scale raw)) := by
  rw [applySample_eq]
  obtain ⟨hq, hqs⟩ := qualityNotices_points (s.setSlot i (s.sampledSlot i raw)) i (s.slot i).quality
  generalize (s.setSlot i (s.sampledSlot i raw)).qualityNotices i (s.slot i).quality = w at hq hqs ⊢
  obtain ⟨hc, hother, hself⟩ := confirm_points w i
    (candidate (s.slot i).cfg (s.slot i).condition (scaleValue (s.slot i).cfg.scale raw))
  refine ⟨SameButPoints.trans hq hc, fun j hj => ?_, ?_⟩
  · obtain ⟨l, h⟩ := hother j hj
    rw [hqs, slot_setSlot_ne _ _ _ _ (Ne.symm hj)] at h
    exact ⟨l, h⟩
  · obtain ⟨l, cond, cand, n, h, hcond⟩ := hself
    rw [hqs, slot_setSlot_self] at h hcond
    exact ⟨l, cond, cand, n, h, hcond⟩

/-! ## The evaluator beside the other blocks -/

theorem listedActive_beside (s u : State) (i : SlotNo) (hclasses : u.classes = s.classes) :
    (s.beside u).listedActive i = s.listedActive i := listedActive_congr i hclasses rfl

/-- An applied sample beside another converter, clock-equal and with the same classes. -/
theorem beside_applySample (s u : State) (i : SlotNo) (raw : RawReading) (hclasses : u.classes = s.classes)
    (hnow : u.now = s.now) : (s.beside u).applySample i raw = (s.applySample i raw).beside u := by
  have hs : (s.beside u).slot i = s.slot i := rfl
  have hr : (s.beside u).sampledSlot i raw = s.sampledSlot i raw := by
    have hn : (s.beside u).now = s.now := hnow
    simp only [sampledSlot, sampleTimer, hs, listedActive_beside s u i hclasses, hn]
  simp only [applySample_eq, hr, hs, beside_setSlot, beside_qualityNotices, beside_confirm]

theorem beside_setFrontEnd {s u : State} (h : SameButPoints s u) (fe : FrontEnd) :
    u.beside (s.setFrontEnd fe) = u.setFrontEnd fe := by
  obtain ⟨h1, h2, h3, h4, h5, h6, h7, h8, h9, h10⟩ := h
  simp only [beside, setFrontEnd, ← h1, ← h2, ← h3, ← h4, ← h5, ← h6, ← h8, ← h9, ← h10]

/-- The evaluator does not look at the converter. -/
theorem applySample_setFrontEnd (s : State) (fe : FrontEnd) (i : SlotNo) (raw : RawReading) :
    (s.setFrontEnd fe).applySample i raw = (s.applySample i raw).setFrontEnd fe := by
  have hs : s.setFrontEnd fe = s.beside (s.setFrontEnd fe) := rfl
  rw [hs, beside_applySample s (s.setFrontEnd fe) i raw rfl rfl, beside_setFrontEnd (applySample_points s i raw).1]

theorem beside_openTag {s u : State} (h : SameButPoints s u) (p : Port) (t : Tag) (k : Byte) :
    u.beside (s.openTag p t k) = u.openTag p t k := by
  obtain ⟨h1, h2, h3, h4, h5, h6, h7, h8, h9, h10⟩ := h
  cases p <;> simp only [beside, openTag, setPort, port, ← h1, ← h2, ← h3, ← h4, ← h5, ← h6, ← h7, ← h8, ← h9, ← h10]

/-- A condition change beside a request's open tag. -/
theorem changeCondition_openTag (s : State) (p : Port) (t : Tag) (k : Byte) (i : SlotNo) (x : Condition) :
    (s.openTag p t k).changeCondition i x = (s.changeCondition i x).openTag p t k := by
  have hs : s.openTag p t k = s.beside (s.openTag p t k) := by cases p <;> rfl
  rw [hs, beside_changeCondition, beside_openTag (changeCondition_points s i x).1]

/-! ## A commit, as one write of the point's record before its condition change (R34 to R36) -/

theorem raise_setSlot (s : State) (i j : SlotNo) (r : PointSlot) (hgen : r.gen = (s.slot i).gen)
    (hcfg : r.cfg = (s.slot i).cfg) (cause : Cause) (x : Condition) :
    (s.setSlot i r).raise j cause x = (s.raise j cause x).setSlot i r := by
  have hg : ((s.setSlot i r).slot j).gen = (s.slot j).gen := by
    rw [slot_setSlot]
    split
    next e => exact e ▸ hgen
    next => rfl
  have hc : ((s.setSlot i r).slot j).cfg = (s.slot j).cfg := by
    rw [slot_setSlot]
    split
    next e => exact e ▸ hcfg
    next => rfl
  have hn : (s.setSlot i r).notice j = s.notice j := rfl
  unfold raise
  rw [hg, hc, hn]
  cases s.notice j with
  | none => rfl
  | some n => cases n with | mk _ _ _ _ _ _ state _ => cases state <;> rfl

theorem followWithdraw_setSlot (s : State) (i j : SlotNo) (r : PointSlot) :
    (s.setSlot i r).followWithdraw j = ((s.followWithdraw j).1.setSlot i r, (s.followWithdraw j).2) := by
  have hn : (s.setSlot i r).notice j = s.notice j := rfl
  unfold followWithdraw
  rw [hn]
  cases s.notice j with
  | none => rfl
  | some n =>
    simp only
    split
    next => split <;> rfl
    next =>
      split
      next => rfl
      next => split <;> rfl

theorem offerRestore_setSlot (s : State) (i j : SlotNo) (r : PointSlot) (a : ActionNo) :
    (s.setSlot i r).offerRestore a j = (s.offerRestore a j).setSlot i r := by
  have ha : (s.setSlot i r).action a = s.action a := rfl
  have ho : (s.setSlot i r).output (s.action a).output = s.output (s.action a).output := rfl
  unfold offerRestore
  simp only [ha, ho]
  split
  next => rfl
  next =>
    split
    next => split <;> rfl
    next => rfl

/-- The notice work of a return to NORMAL does not look at the stale timer. -/
theorem returnNotices_setSlot (s : State) (i : SlotNo) (r : PointSlot) (hgen : r.gen = (s.slot i).gen)
    (hcfg : r.cfg = (s.slot i).cfg) : (s.setSlot i r).returnNotices i = (s.returnNotices i).setSlot i r := by
  have hr : ∀ v : State, (∃ n, v = s.setNotice i n) → (v.slot i).gen = (s.slot i).gen ∧ (v.slot i).cfg = (s.slot i).cfg := by
    rintro v ⟨n, rfl⟩
    exact ⟨rfl, rfl⟩
  have hf := followWithdraw_frame s i
  have hs : (s.setSlot i r).slot i = r := slot_setSlot_self s i r
  unfold returnNotices
  simp only [hs, hcfg, followWithdraw_setSlot]
  by_cases hp : (s.slot i).cfg.policy = .follow
  · simp only [if_pos hp]
    split
    next => rfl
    next =>
      split
      next => exact raise_setSlot _ _ _ _ (hgen.trans (hr _ hf).1.symm) (hcfg.trans (hr _ hf).2.symm) _ _
      next => rfl
  · simp only [if_neg hp, Bool.false_eq_true, if_false]
    split
    next => exact raise_setSlot _ _ _ _ hgen hcfg _ _
    next => rfl

theorem returnToNormal_setSlot (s : State) (i : SlotNo) (r : PointSlot) (hgen : r.gen = (s.slot i).gen)
    (hcfg : r.cfg = (s.slot i).cfg) (hlink : r.link = (s.slot i).link) :
    (s.setSlot i r).returnToNormal i = (s.returnToNormal i).setSlot i r := by
  have hs : (s.setSlot i r).slot i = r := slot_setSlot_self s i r
  unfold returnToNormal
  rw [hs, hlink, returnNotices_setSlot s i r hgen hcfg]
  cases (s.slot i).link with
  | none => rfl
  | some a => exact offerRestore_setSlot ..

/-- The stale timer that a commit leaves (R36). -/
def committedTimer (s : State) (i : SlotNo) (staged : PointConfig) : Option Nat :=
  if s.listedActive i = true ∧ staged.staleInterval ≠ (s.slot i).cfg.staleInterval then
    staged.staleInterval.map fun ms => s.now + ms * 1000
  else (s.slot i).staleTimer

/-- A point's record as a commit writes it before its condition change (R34, R36). -/
def committedSlot (s : State) (i : SlotNo) (staged : PointConfig) : PointSlot :=
  { s.slot i with
    cfg := staged, claim := none, pendingCandidate := none, pendingCount := 0, staleTimer := s.committedTimer i staged }

/-- The timer's part of a commit, as a write of the record (R36). -/
theorem commitTimer_eq (u : State) (i : SlotNo) (before : Option Nat) : u.commitTimer i before = u.setSlot i { u.slot i with
    staleTimer :=
      if u.listedActive i = true ∧ (u.slot i).cfg.staleInterval ≠ before then
        (u.slot i).cfg.staleInterval.map fun ms => u.now + ms * 1000
      else (u.slot i).staleTimer } := by
  unfold commitTimer
  split
  next h =>
    cases hms : (u.slot i).cfg.staleInterval with
    | none => rfl
    | some ms =>
      rw [startTimer_eq]
      simp [hms]
  next h => exact (setSlot_slot_self u i).symm

theorem changeCondition_normal (s : State) (i : SlotNo) : s.changeCondition i .normal =
    (s.setSlot i { s.slot i with condition := .normal }).returnToNormal i := rfl

theorem commit_eq (s : State) (i : SlotNo) (staged : PointConfig) : s.commit i staged =
    if (s.slot i).condition ≠ .normal ∧ limitOf staged (s.slot i).condition = none then
      (s.setSlot i (s.committedSlot i staged)).changeCondition i .normal
    else s.setSlot i (s.committedSlot i staged) := by
  unfold commit
  simp only [slot_setSlot_self]
  split
  next h =>
    simp only [changeCondition_normal, slot_setSlot_self, setSlot_setSlot]
    rw [commitTimer_eq]
    generalize hw : ({ s.slot i with
      cfg := staged, claim := none, pendingCandidate := none, pendingCount := 0, condition := .normal } : PointSlot) = w
    obtain ⟨hsame, hslot⟩ := returnToNormal_points (s.setSlot i w) i
    obtain ⟨-, hnow, -, -, -, hclasses, -⟩ := hsame
    rw [hslot, slot_setSlot_self, hnow, listedActive_congr i hclasses (by rw [hslot]),
      listedActive_setSlot s i w (by rw [← hw])]
    rw [← returnToNormal_setSlot _ _ _ (by rw [slot_setSlot_self]) (by rw [slot_setSlot_self]) (by rw [slot_setSlot_self]),
      setSlot_setSlot, ← hw]
    rfl
  next h =>
    rw [commitTimer_eq, slot_setSlot_self, setSlot_setSlot]
    have hlisted := listedActive_setSlot s i
      { s.slot i with cfg := staged, claim := none, pendingCandidate := none, pendingCount := 0 } rfl
    rw [hlisted]
    rfl

end State
end Sys2Proof.Machine
end

section
/-! SUPPORT. The shared operations as moves: the ports' traffic, raises and withdrawals, drives and restores, a condition
change, an applied sample, a commit and the service of the waits (R34 to R37, R89 to R103, R112 to R132, R143 to R148,
R168 to R172). -/

namespace Sys2Proof.Machine
namespace State

/-! ## Moves that write no block but the ports, the converter, the waits and the outputs -/

theorem SameBlocks.refl (s : State) : SameBlocks s s :=
  ⟨rfl, rfl, le_rfl, rfl, rfl, rfl, rfl, rfl, fun _ => rfl, fun _ => rfl, fun _ _ => Iff.rfl⟩

theorem move_setPort (s : State) (p : Port) (r : PortRec) (h : r.session = (s.port p).session) : Move s (s.setPort p r) := by
  have hsession (q : Port) : ((s.setPort p r).port q).session = (s.port q).session := by
    rw [port_setPort]
    split
    next e => exact e ▸ h
    next => rfl
  cases p with
  | H => exact .rest _ { SameBlocks.refl s with sessions := hsession }
  | L => exact .rest _ { SameBlocks.refl s with sessions := hsession }

theorem move_setWaits (s : State) (ws : List WaitRec) : Move s (s.setWaits ws) :=
  .rest _ { SameBlocks.refl s with sessions := fun p => by rw [setWaits_port] }

theorem move_countRaise (s : State) : Move s s.countRaise :=
  .rest _ { SameBlocks.refl s with sessions := fun p => by rw [countRaise_port] }

theorem move_advanceTo (s : State) (due : Nat) : Move s (s.advanceTo due) :=
  .rest _ { SameBlocks.refl s with sessions := fun p => by rw [advanceTo_port], now := le_max_left .. }

theorem move_setFrontEnd (s : State) (fe : FrontEnd) (h : ∀ c j, fe.converter.held = some (.scan c j) ↔
    s.frontEnd.converter.held = some (.scan c j)) : Move s (s.setFrontEnd fe) :=
  .rest _ { SameBlocks.refl s with sessions := fun p => by rw [setFrontEnd_port], held := h }

theorem move_setOutput (s : State) (o : OutputNo) (r : OutputChannel) (h : r.pin = (s.output o).pin) :
    Move s (s.setOutput o r) := by
  refine .rest _ { SameBlocks.refl s with sessions := fun p => by rw [setOutput_port], pins := fun q => ?_ }
  rw [output_setOutput]
  split
  next e => exact e ▸ h
  next => rfl

theorem move_dropSaved (s : State) (who : LastWriter → Bool) : Move s (s.dropSaved who) :=
  .rest _ { SameBlocks.refl s with
    sessions := fun p => by rw [dropSaved, mapOutputs_port]
    pins := fun o => dropSaved_pin s who o }

theorem move_updateAttention (s : State) : Move s s.updateAttention := by
  rw [updateAttention_eq]
  exact .rest _ { SameBlocks.refl s with sessions := fun p => by cases p <;> rfl }

/-! ## A port's traffic (R164 to R172) -/

theorem move_answerTag (s : State) (p : Port) (t : Tag) (code : ResultCode) (data : List Byte) :
    Move s (s.answerTag p t code data) := by
  obtain ⟨r, h, hs, -⟩ := answerTag_records s p t code data
  exact h ▸ move_setPort s p r hs

theorem move_openTag (s : State) (p : Port) (t : Tag) (k : Byte) : Move s (s.openTag p t k) := move_setPort s p _ rfl

theorem move_endCollect (s : State) (p : Port) : Move s (s.endCollect p) := move_setPort s p _ rfl

theorem move_countFrameError (s : State) (p : Port) : Move s (s.countFrameError p) := move_setPort s p _ rfl

theorem move_refuse (s : State) (p : Port) (t : Tag) (k : Byte) (code : ResultCode) : Move s (s.refuse p t k code) := by
  unfold refuse
  split
  next => exact move_setPort s p _ rfl
  next => exact move_setPort s p _ rfl

theorem beginCollect_session (s : State) (p : Port) : ((s.beginCollect p).port p).session = (s.port p).session := by
  simp [beginCollect]

theorem removeChosen_session (s : State) (p : Port) (c : Option (Bool × Answer)) :
    ((s.removeChosen p c).port p).session = (s.port p).session := by
  rcases c with _ | ⟨_ | _, a⟩ <;> simp [removeChosen]

theorem clockBytes_session (s : State) (p : Port) (n : Nat) :
    ((s.clockBytes p n).port p).session = (s.port p).session := by
  unfold clockBytes
  split
  next => rfl
  next => rfl
  next => simp [drive]
  next =>
    split
    next => simp [drive]
    next => simp [drive, removeChosen_session]

theorem collectOn_session (s : State) (p : Port) (n : Nat) : ((s.collectOn p n).port p).session = (s.port p).session := by
  unfold collectOn
  split
  next => rw [clockBytes_session, beginCollect_session]
  next => rw [clockBytes_session]

theorem move_collectOn (s : State) (p : Port) (n : Nat) : Move s (s.collectOn p n) := by
  rw [collectOn_eq]
  exact move_setPort s p _ (collectOn_session s p n)

theorem moves_giveReply (s : State) (p : Port) (t : Tag) (r : Reply) : Moves s (s.giveReply p t r) := by
  cases r with
  | done code data => exact (move_answerTag ..).moves
  | waits => exact .refl _

/-! ## Notices (R112 to R117, R125) -/

/-- A notice written in the place of one that stands, no less legal. -/
theorem move_setNotice (s : State) (i : SlotNo) (n m : Notice) (hm : s.notice i = some m)
    (h : s.NoticeLegal i m → s.NoticeLegal i n) : Move s (s.setNotice i (some n)) :=
  .notice i _ (fun _ hnone => by simp [hm] at hnone) fun _ hlegal _ he => by
    cases he
    exact h (hlegal m hm)

theorem move_removeNotice (s : State) (i : SlotNo) : Move s (s.setNotice i none) :=
  .notice i _ (fun _ _ => rfl) fun _ _ _ he => by cases he

theorem noticeLegal_delivered {s : State} {i : SlotNo} {n : Notice} {p : Port} (hnames : s.names i n.gen = true)
    (hcount : 1 ≤ n.count ∧ n.count ≤ 255) (hs : n.state = .delivered p) :
    s.NoticeLegal i n ↔ s.attached p = true := by
  simp only [NoticeLegal, hs]
  exact ⟨fun h => h.2.2, fun h => ⟨hnames, hcount, h⟩⟩

theorem noticeLegal_fold {s : State} {i : SlotNo} {n : Notice} (h : s.NoticeLegal i n) (cause : Cause) (x : Condition)
    (sev : Severity) : s.NoticeLegal i (n.fold cause x sev) :=
  ⟨h.1, by simp [Notice.fold], h.2.2⟩

theorem noticeLegal_hold {s : State} {i : SlotNo} {n : Notice} (h : s.NoticeLegal i n) (p : Port)
    (hs : n.state = .delivered p) (cause : Cause) (x : Condition) (sev : Severity) :
    s.NoticeLegal i (n.hold cause x sev) := by
  have h3 : s.attached p = true := (noticeLegal_delivered h.1 h.2.1 hs).1 h
  have hstate : (n.hold cause x sev).state = .delivered p := by
    unfold Notice.hold
    split <;> exact hs
  refine ⟨?_, ?_, by simpa only [hstate] using h3⟩
  · unfold Notice.hold
    split <;> exact h.1
  · unfold Notice.hold
    split <;> exact h.2.1

/-- A raise for a point: a new notice is one of its generation (R112 to R114). -/
theorem moves_raise (s : State) (i : SlotNo) (cause : Cause) (x : Condition) (hi : s.Live i) :
    Moves s (s.raise i cause x) := by
  cases h : s.notice i with
  | none =>
    rw [raise_of_none s i cause x h]
    refine (move_countRaise s).moves.move (.notice i _ (fun hn => absurd hi hn) fun hd _ m he => ?_)
    cases he
    exact ⟨names_self _ _ (hd hi), by simp [Notice.fresh], rfl⟩
  | some n =>
    cases hs : n.state with
    | pending =>
      rw [raise_of_pending s i cause x n h hs]
      exact (move_setNotice s i _ n h fun hl => noticeLegal_fold hl ..).moves
    | delivered p =>
      rw [raise_of_delivered s i cause x n p h hs]
      exact (move_setNotice s i _ n h fun hl => noticeLegal_hold hl p hs ..).moves

theorem moves_followWithdraw (s : State) (i : SlotNo) : Moves s (s.followWithdraw i).1 := by
  unfold followWithdraw
  cases h : s.notice i with
  | none => exact .refl _
  | some n =>
    simp only
    split
    next =>
      split
      next => exact (move_removeNotice s i).moves
      next => exact .refl _
    next p hs =>
      split
      next => exact .refl _
      next f hf =>
        split
        next => 
          exact (move_setNotice s i { n with followOn := none } n h fun hl =>
            (noticeLegal_delivered (n := { n with followOn := none }) hl.1 hl.2.1 hs).2 ((noticeLegal_delivered hl.1 hl.2.1 hs).1 hl)).moves
        next => exact .refl _

theorem moves_staleWithdraw (s : State) (i : SlotNo) : Moves s (s.staleWithdraw i) := by
  unfold staleWithdraw
  split
  next => exact .refl _
  next =>
    split
    next => exact (move_removeNotice s i).moves
    next => exact .refl _

/-- A delivery: the notice chosen is deliverable, so its port is ATTACHED (R119, R122). -/
theorem moves_fetch (s u : State) (p : Port) (data : List Byte) (h : s.fetch p = some (u, data)) : Moves s u := by
  obtain ⟨⟨i, n⟩, hb, he⟩ := Option.map_eq_some_iff.1 h
  cases he
  obtain ⟨hn, -, -, -, ha⟩ := (deliverable_eq_some s p i n).1 (best_isBest s p i n hb).1
  exact (move_setNotice s i { n with state := .delivered p } n hn fun hl =>
    (noticeLegal_delivered (n := { n with state := .delivered p }) hl.1 hl.2.1 rfl).2 ha).moves

theorem moves_serveWait (s : State) (w : WaitRec) : Moves s (s.serveWait w) := by
  unfold serveWait
  cases h : s.fetch w.port with
  | none => exact .refl _
  | some x => exact ((moves_fetch s x.1 w.port x.2 h).move (move_setWaits ..)).move (move_answerTag ..)

/-- The service of the waits (R125). -/
theorem moves_serveWaits (s : State) : Moves s s.serveWaits := by
  have : ∀ (ws : List WaitRec) (u : State), Moves u (ws.foldl serveWait u) := by
    intro ws
    induction ws with
    | nil => exact .refl
    | cons w ws ih => exact fun u => (moves_serveWait u w).trans (ih _)
  exact this s.waits s

theorem moves_endSession (s : State) (p : Port) : Moves s (s.endSession p) :=
  (Move.sessionEnds p).moves.trans (moves_serveWaits _)

/-! ## A condition change (R98 to R103) -/

theorem moves_offerRestore (s : State) (a : ActionNo) (i : SlotNo) : Moves s (s.offerRestore a i) := by
  unfold offerRestore
  simp only
  split
  next => exact .refl _
  next =>
    split
    next =>
      split
      next => exact (move_setOutput s _ _ (by rfl)).moves
      next => exact (move_setOutput s _ _ (by rfl)).moves
    next => exact .refl _

theorem moves_invoke (s : State) (a : ActionNo) (i : SlotNo) (ha : (s.action a).state = .armed) :
    Moves s (s.invoke a i).1 := by
  cases hp : (s.output (s.action a).output).pin with
  | some p =>
    rw [invoke_blocked s a i (by simp [hp])]
    exact .refl _
  | none =>
    rw [invoke_drives s a i hp]
    exact (move_setOutput s _ ((s.output (s.action a).output).driven a (s.action a) i) rfl).moves.move (.drive a ha)

theorem live_congr {s u : State} {i : SlotNo} (hd : (s.slot i).state = .defined)
    (h : (u.slot i).state = (s.slot i).state) : u.Live i := live_of_defined (h.trans hd)

theorem moves_enterCondition (s : State) (i : SlotNo) (x : Condition) (hd : (s.slot i).state = .defined) :
    Moves s (s.enterCondition i x) := by
  have hinvoke : Moves s (s.invokeOnEntry i x).1 ∧ (s.invokeOnEntry i x).1.Live i := by
    unfold invokeOnEntry
    split
    next => exact ⟨.refl _, live_of_defined hd⟩
    next a _ =>
      split
      next h =>
        obtain ⟨l, hl⟩ := invoke_slot s a i i
        exact ⟨moves_invoke s a i h.1, live_congr hd (by rw [hl])⟩
      next => exact ⟨.refl _, live_of_defined hd⟩
  have hraises (u : State) (o : InvokeOutcome) (c : Option Cause) (hu : u.Live i) : Moves u (u.entryRaises i x o c) := by
    have hfirst : Moves u (if o = .suppressed then u else u.raise i .entered x) ∧
        (if o = .suppressed then u else u.raise i .entered x).Live i := by
      split
      next => exact ⟨.refl _, hu⟩
      next => exact ⟨moves_raise u i _ x hu, by simpa only [Live, raise_slot] using hu⟩
    unfold entryRaises
    cases c with
    | none => exact hfirst.1
    | some cause => exact hfirst.1.trans (moves_raise _ i cause x hfirst.2)
  exact hinvoke.1.trans (hraises _ _ _ hinvoke.2)

theorem moves_returnNotices (s : State) (i : SlotNo) (hd : (s.slot i).state = .defined) : Moves s (s.returnNotices i) := by
  have hfirst : Moves s (if (s.slot i).cfg.policy = .follow then s.followWithdraw i else (s, false)).1 ∧
      (if (s.slot i).cfg.policy = .follow then s.followWithdraw i else (s, false)).1.Live i := by
    split
    next =>
      obtain ⟨n, hn⟩ := followWithdraw_frame s i
      exact ⟨moves_followWithdraw s i, live_congr hd (by rw [hn]; rfl)⟩
    next => exact ⟨.refl _, live_of_defined hd⟩
  unfold returnNotices
  simp only
  generalize (if (s.slot i).cfg.policy = .follow then s.followWithdraw i else (s, false)) = r at hfirst ⊢
  split
  next => exact hfirst.1
  next =>
    split
    next => exact hfirst.1.trans (moves_raise _ i _ _ hfirst.2)
    next => exact hfirst.1

theorem moves_returnToNormal (s : State) (i : SlotNo) (hd : (s.slot i).state = .defined) :
    Moves s (s.returnToNormal i) := by
  unfold returnToNormal
  split
  next => exact moves_returnNotices s i hd
  next a _ => exact (moves_returnNotices s i hd).trans (moves_offerRestore _ a i)

/-- A write of a point's record that leaves its timer. -/
theorem move_setSlot (s : State) (i : SlotNo) (r : PointSlot) (h : (s.slot i).Evolves r)
    (ht : r.staleTimer = (s.slot i).staleTimer) (hcfg : r.cfg = (s.slot i).cfg) : Move s (s.setSlot i r) :=
  .slot i r h (.inr (.inl ⟨ht, .inl (by rw [hcfg])⟩))

/-- The limit that an abnormal condition names is present (R94). -/
def LimitPresent (c : PointConfig) (x : Condition) : Prop := x ≠ .normal → (limitOf c x).isSome = true

/-- A condition change to a condition whose limit is present (R94, R98). -/
theorem moves_changeCondition (s : State) (i : SlotNo) (x : Condition) (hd : (s.slot i).state = .defined)
    (hx : LimitPresent (s.slot i).cfg (s.slot i).condition → LimitPresent (s.slot i).cfg x) :
    Moves s (s.changeCondition i x) := by
  have hset : Move s (s.setSlot i { s.slot i with condition := x }) :=
    move_setSlot s i _ (.ofDefined hd rfl rfl rfl rfl (.inr rfl) fun h =>
      ⟨h.inRange, h.limits, h.staged, h.count, h.confirm, hx h.condition⟩) rfl rfl
  have hd' : ((s.setSlot i { s.slot i with condition := x }).slot i).state = .defined := by rw [slot_setSlot_self, hd]
  unfold changeCondition
  cases x with
  | normal => exact hset.moves.trans (moves_returnToNormal _ i hd')
  | _ => exact hset.moves.trans (moves_enterCondition _ i _ hd')

/-! ## An applied sample and a commit (R34 to R36, R89, R97) -/

/-- The confirmation of a candidate whose limit is present (R97). -/
theorem moves_confirm (s : State) (i : SlotNo) (x : Condition) (hd : (s.slot i).state = .defined)
    (hx : LimitPresent (s.slot i).cfg (s.slot i).condition → LimitPresent (s.slot i).cfg x) :
    Moves s (s.confirm i x) := by
  have hclear : Move s (s.setSlot i { s.slot i with pendingCandidate := none, pendingCount := 0 }) :=
    move_setSlot s i _ (.ofDefined hd rfl rfl rfl rfl (.inr rfl) fun h =>
      ⟨h.inRange, h.limits, h.staged, by simp, by simp, h.condition⟩) rfl rfl
  unfold confirm
  split
  next => exact hclear.moves
  next =>
    split
    next =>
      exact hclear.moves.trans (moves_changeCondition _ i x (by rw [slot_setSlot_self, hd])
        (by simpa only [slot_setSlot_self] using hx))
    next hne =>
      refine (move_setSlot s i { s.slot i with pendingCandidate := some x, pendingCount := s.nextCount i x }
        (.ofDefined hd rfl rfl rfl rfl (.inr rfl) fun h =>
          ⟨h.inRange, h.limits, h.staged, ?_, fun _ => ?_, h.condition⟩) rfl rfl).moves
      · unfold nextCount
        split <;> simp
      · have hcount : s.nextCount i x ≤ (s.slot i).cfg.confirm := by
          unfold nextCount
          split
          next hp => exact h.confirm (by simp [hp])
          next => exact h.inRange.1.1
        exact lt_of_le_of_ne hcount hne

/-- The limit of a raw candidate is present (R93). -/
theorem limitPresent_rawCandidate (c : PointConfig) (v : Word32) : LimitPresent c (rawCandidate c v) := by
  have habove (l : Option Word32) (h : atOrAbove v l = true) : l.isSome = true := by
    obtain ⟨x, hx, -⟩ := (atOrAbove_iff v l).1 h
    simp [hx]
  have hbelow (l : Option Word32) (h : atOrBelow v l = true) : l.isSome = true := by
    obtain ⟨x, hx, -⟩ := (atOrBelow_iff v l).1 h
    simp [hx]
  unfold rawCandidate
  split
  next h => exact fun _ => habove _ h
  next =>
    split
    next h => exact fun _ => habove _ h
    next =>
      split
      next h => exact fun _ => hbelow _ h
      next =>
        split
        next h => exact fun _ => hbelow _ h
        next => exact fun h => absurd rfl h

theorem limitPresent_candidate (c : PointConfig) (x : Condition) (v : Word32) (hx : LimitPresent c x) :
    LimitPresent c (candidate c x v) := by
  unfold candidate
  split
  next => exact limitPresent_rawCandidate c v
  next =>
    split
    next => exact limitPresent_rawCandidate c v
    next => exact hx

theorem moves_qualityNotices (s : State) (i : SlotNo) (before : Quality) (hd : (s.slot i).state = .defined) :
    Moves s (s.qualityNotices i before) := by
  have hfirst : Moves s (if before = .stale ∧ (s.slot i).cfg.policy = .follow then s.staleWithdraw i else s) ∧
      (if before = .stale ∧ (s.slot i).cfg.policy = .follow then s.staleWithdraw i else s).Live i := by
    split
    next =>
      obtain ⟨n, hn⟩ := staleWithdraw_frame s i
      exact ⟨moves_staleWithdraw s i, live_congr hd (by rw [hn]; rfl)⟩
    next => exact ⟨.refl _, live_of_defined hd⟩
  unfold qualityNotices
  simp only
  generalize (if before = .stale ∧ (s.slot i).cfg.policy = .follow then s.staleWithdraw i else s) = w at hfirst ⊢
  split
  next => exact hfirst.1.trans (moves_raise _ i _ _ hfirst.2)
  next => exact hfirst.1

/-- A timer that is started with the full interval of a listed point, or left as it was (R91). -/
theorem timerMoves_sampleTimer (s : State) (i : SlotNo) (r : PointSlot) (hcfg : r.cfg = (s.slot i).cfg)
    (ht : r.staleTimer = s.sampleTimer i) : s.TimerMoves i r := by
  unfold sampleTimer at ht
  split at ht
  next h =>
    obtain ⟨ms, hms⟩ := Option.isSome_iff_exists.1 h.2
    exact .inr (.inr ⟨h.1, ms, by rw [hcfg, hms], by rw [ht, hms]; rfl⟩)
  next => exact .inr (.inl ⟨ht, .inl (by rw [hcfg])⟩)

/-- The application of a sample to a DEFINED point (R89). -/
theorem moves_applySample (s : State) (i : SlotNo) (raw : RawReading) (hd : (s.slot i).state = .defined) :
    Moves s (s.applySample i raw) := by
  have hwrite : Move s (s.setSlot i (s.sampledSlot i raw)) :=
    .slot i _ (.ofDefined hd rfl rfl rfl rfl (.inr rfl) fun h =>
      ⟨h.inRange, h.limits, h.staged, h.count, h.confirm, h.condition⟩) (timerMoves_sampleTimer s i _ rfl rfl)
  have hd' : ((s.setSlot i (s.sampledSlot i raw)).slot i).state = .defined := by
    rw [slot_setSlot_self]
    exact hd
  have hslot := (qualityNotices_points (s.setSlot i (s.sampledSlot i raw)) i (s.slot i).quality).2 i
  rw [slot_setSlot_self] at hslot
  rw [applySample_eq]
  refine (hwrite.moves.trans (moves_qualityNotices _ i _ hd')).trans (moves_confirm _ i _ (by rw [hslot]; exact hd) ?_)
  rw [hslot]
  exact limitPresent_candidate _ _ _

theorem timerMoves_committedTimer (s : State) (i : SlotNo) (r : PointSlot) (staged : PointConfig) (hcfg : r.cfg = staged)
    (ht : r.staleTimer = s.committedTimer i staged) : s.TimerMoves i r := by
  unfold committedTimer at ht
  split at ht
  next h =>
    cases hms : staged.staleInterval with
    | none => exact .inl (by rw [ht, hms]; rfl)
    | some ms => exact .inr (.inr ⟨h.1, ms, by rw [hcfg, hms], by rw [ht, hms]; rfl⟩)
  next h =>
    refine .inr (.inl ⟨ht, ?_⟩)
    rw [hcfg]
    by_cases hl : s.listedActive i = true
    · exact .inl (by simpa [hl] using h)
    · exact .inr (by simpa using hl)

/-- The commit of the staged copy of a claim, past the limit check (R34 to R36). -/
theorem moves_commit (s : State) (i : SlotNo) (c : Claim) (hd : (s.slot i).state = .defined)
    (hc : (s.slot i).claim = some c) (hlimits : limitCheck c.staged = true) : Moves s (s.commit i c.staged) := by
  have hwrite (x : Condition) (hx : LimitPresent c.staged x) :
      Move s (s.setSlot i { s.committedSlot i c.staged with condition := x }) :=
    .slot i _ (.ofDefined hd rfl rfl rfl rfl (.inl rfl) fun h =>
      ⟨h.staged c hc, hlimits, by simp [committedSlot], by simp [committedSlot], by simp [committedSlot], hx⟩)
      (timerMoves_committedTimer s i _ c.staged rfl rfl)
  rw [commit_eq]
  split
  next =>
    rw [changeCondition_normal, slot_setSlot_self, setSlot_setSlot]
    exact (hwrite .normal fun h => absurd rfl h).moves.trans (moves_returnToNormal _ i (by rw [slot_setSlot_self]; exact hd))
  next h =>
    refine (hwrite (s.slot i).condition fun hne => ?_).moves
    rw [Option.isSome_iff_ne_none]
    exact fun hnone => h ⟨hne, hnone⟩

end State
end Sys2Proof.Machine
end

section
/-! SUPPORT. The meaning of each request as moves: what a request does to the part, its answer aside (R10 to R23, R29 to
R39, R46 to R68, R77, R79, R122 to R130, R136 to R142, R153 to R159, R174 to R180). -/

namespace Sys2Proof.Machine
namespace State

theorem moves_withRef (s : State) (slot gen : Byte) (go : SlotNo → State × Reply)
    (h : ∀ i, s.names i gen = true → Moves s (go i).1) : Moves s (s.withRef slot gen go).1 := by
  unfold withRef
  split
  next => exact .refl _
  next i _ =>
    split
    next hi => exact h i hi
    next => exact .refl _

theorem defined_of_names {s : State} {i : SlotNo} {g : Generation} (h : s.names i g = true) :
    (s.slot i).state = .defined := ((names_iff s i g).1 h).1

/-! ## The PORT requests -/

theorem moves_ownAttach (s : State) (p : Port) (timeout threshold : Byte) : Moves s (ownAttach p timeout threshold s).1 := by
  unfold ownAttach
  split
  next => exact .refl _
  next =>
    split
    next => exact .refl _
    next => exact (Move.attach p _ rfl).moves

theorem moves_ownSet (s : State) (p : Port) (timeout threshold : Byte) : Moves s (ownSet p timeout threshold s).1 := by
  unfold ownSet
  split
  next => exact .refl _
  next => exact (move_setPort s p _ (by rfl)).moves.trans (moves_serveWaits _)

theorem moves_ownStatus (s : State) (p : Port) (clear : Byte) : Moves s (ownStatus p clear s).1 := by
  unfold ownStatus
  split
  next => exact .refl _
  next => exact .refl _
  next => exact (move_setPort s p _ (by rfl)).moves

theorem held_discardFor (who : DirectJob → Bool) (c : Converter) (k : ClassNo) (j : ScanJob) :
    (c.discardFor who).held = some (.scan k j) ↔ c.held = some (.scan k j) := by
  have hjob (h : HeldJob) : h.discardFor who = .scan k j ↔ h = .scan k j := by
    cases h with
    | scan c j => exact Iff.rfl
    | direct d ch g =>
      simp only [HeldJob.discardFor]
      split <;> simp
  cases c with
  | idle => exact Iff.rfl
  | settling h due => simpa [Converter.discardFor, Converter.held] using hjob h
  | sampling h due => simpa [Converter.discardFor, Converter.held] using hjob h

theorem moves_cancelEffect (s u : State) (p : Port) (t : Tag) (h : s.cancelEffect p t = some u) : Moves s u := by
  unfold cancelEffect at h
  split at h
  next =>
    cases h
    exact (move_setFrontEnd s _ (by exact fun _ _ => Iff.rfl)).moves
  next =>
    split at h
    next =>
      cases h
      exact (move_setFrontEnd s _ fun c j => held_discardFor _ _ c j).moves
    next =>
      split at h
      next =>
        cases h
        exact (move_setWaits s _).moves
      next => cases h

theorem moves_ownCancel (s : State) (p : Port) (t : Tag) (target : Byte) : Moves s (ownCancel p t target s).1 := by
  unfold ownCancel
  split
  next => exact .refl _
  next =>
    split
    next => exact .refl _
    next =>
      split
      next => exact .refl _
      next u hu => exact (moves_cancelEffect s u p _ hu).move (move_answerTag ..)

theorem moves_ownDetach (s : State) (p : Port) (t : Tag) : Moves s (ownDetach p t s).1 :=
  (moves_endSession s p).move (move_openTag ..)

/-! ## The POINT requests -/

/-- A configuration read from a block is in range (R5). -/
theorem configOf_inRange (b : ConfigBlock) (cfg : PointConfig) (h : configOf b = some cfg) : cfg.InRange := by
  simp only [configOf, Option.bind_eq_bind, Option.bind_eq_some_iff] at h
  obtain ⟨_, -, _, -, confirm, hconfirm, stale, hstale, _, -, _, -, _, -, hcfg⟩ := h
  cases hcfg
  constructor
  · rw [confirmOf_eq] at hconfirm
    split at hconfirm
    next hc => cases hconfirm; exact hc
    next => cases hconfirm
  · intro ms hms
    unfold staleFieldOf at hstale
    split at hstale
    next =>
      obtain ⟨_, hs, rfl⟩ := Option.map_eq_some_iff.1 hstale
      cases hms
      rw [staleOf_eq] at hs
      split at hs
      next hc => cases hs; exact hc
      next => cases hs
    next =>
      cases hstale
      cases hms

theorem lowestFree_free (s : State) (i : SlotNo) (h : s.lowestFree = some i) : (s.slot i).state = .free := by
  simpa using List.find?_some h

theorem moves_ownDefine (s : State) (b : ConfigBlock) : Moves s (ownDefine b s).1 := by
  unfold ownDefine
  split
  next => exact .refl _
  next cfg hcfg =>
    split
    next => exact .refl _
    next hkey =>
      split
      next => exact .refl _
      next hlim =>
        split
        next => exact .refl _
        next hnew =>
          split
          next => exact .refl _
          next i hi =>
            refine (Move.define i b.key cfg (lowestFree_free s i hi) hkey ?_ (configOf_inRange b cfg hcfg)
              (by simpa using hlim)).moves
            exact (keySlot_eq_none s b.key).1 (by simpa using hnew)

theorem moves_ownFind (s : State) (key : Word32) : Moves s (ownFind key s).1 := by
  unfold ownFind
  split
  next => exact .refl _
  next => split <;> exact .refl _

theorem moves_ownSummary (s : State) (start : Byte) : Moves s (ownSummary start s).1 := by
  unfold ownSummary
  split <;> exact .refl _

theorem moves_ownRetire (s : State) (p : Port) (slot gen : Byte) : Moves s (ownRetire p slot gen s).1 :=
  moves_withRef s slot gen _ fun i hi => by
    split
    next => exact .refl _
    next => exact (Move.retire i (defined_of_names hi)).moves

theorem move_enqueue (s : State) (j : DirectJob) : Move s (s.enqueue j) := move_setFrontEnd s _ fun _ _ => Iff.rfl

theorem moves_ownConvert (s : State) (p : Port) (t : Tag) (ch g : Byte) : Moves s (ownConvert p t ch g s).1 := by
  unfold ownConvert
  split
  next => exact (move_enqueue s _).moves
  next => exact .refl _

/-! ## The EDIT requests -/

/-- An edit that a field code asks for keeps a configuration in range (R31). -/
theorem fieldEdit_inRange (field presence : Byte) (area : BitVec 64) (edit : PointConfig → PointConfig)
    (h : fieldEdit field presence area = some edit) (c : PointConfig) (hc : c.InRange) : (edit c).InRange := by
  have hpresent (h : presentEdit field area = some edit) : (edit c).InRange := by
    unfold presentEdit at h
    split at h
    case h_9 =>
      obtain ⟨n, hn, rfl⟩ := Option.map_eq_some_iff.1 h
      rw [confirmOf_eq] at hn
      split at hn
      next hr => cases hn; exact ⟨hr, hc.2⟩
      next => cases hn
    case h_10 =>
      obtain ⟨n, hn, rfl⟩ := Option.map_eq_some_iff.1 h
      rw [staleOf_eq] at hn
      split at hn
      next hr => cases hn; exact ⟨hc.1, fun ms hms => by cases hms; exact hr⟩
      next => cases hn
    case h_16 => cases h
    case h_3 => cases h; exact hc
    case h_4 => cases h; exact hc
    case h_5 => cases h; exact hc
    case h_6 => cases h; exact hc
    case h_7 => cases h; exact hc
    case h_8 => cases h; exact hc
    all_goals
      obtain ⟨n, -, rfl⟩ := Option.map_eq_some_iff.1 h
      exact hc
  have habsent (h : absentEdit field = some edit) : (edit c).InRange := by
    unfold absentEdit at h
    split at h
    case h_6 => cases h; exact ⟨hc.1, fun ms hms => by cases hms⟩
    case h_7 => cases h
    all_goals
      cases h
      exact hc
  unfold fieldEdit at h
  split at h
  next => cases h
  next => exact hpresent h
  next => exact habsent h

theorem ownClaim_eq_some (s : State) (p : Port) (i : SlotNo) (c : Claim) :
    s.ownClaim p i = some c ↔ (s.slot i).claim = some c ∧ c.owner = p := by
  simp [ownClaim, Option.filter_eq_some_iff]

theorem moves_ownOpen (s : State) (p : Port) (slot gen : Byte) (ha : s.attached p = true) :
    Moves s (ownOpen p slot gen s).1 :=
  moves_withRef s slot gen _ fun i hi => by
    split
    next => exact (Move.claim i _ (defined_of_names hi) ha (by exact fun h => h.inRange)).moves
    next c hc =>
      split
      next ho => exact (Move.claim i _ (defined_of_names hi) (by exact ho ▸ ha) (by exact fun h => h.staged c hc)).moves
      next => exact .refl _

theorem moves_ownEditSet (s : State) (p : Port) (slot gen field presence : Byte) (area : BitVec 64)
    (ha : s.attached p = true) : Moves s (ownEditSet p slot gen field presence area s).1 := by
  unfold ownEditSet
  split
  next => exact .refl _
  next edit hedit =>
    refine moves_withRef s slot gen _ fun i hi => ?_
    split
    next => exact .refl _
    next c hc =>
      obtain ⟨hc, ho⟩ := (ownClaim_eq_some s p i c).1 hc
      exact (Move.claim i _ (defined_of_names hi) (by exact ho ▸ ha) (by
        exact fun h => fieldEdit_inRange field presence area edit hedit _ (h.staged c hc))).moves

theorem moves_ownCommit (s : State) (p : Port) (slot gen : Byte) : Moves s (ownCommit p slot gen s).1 :=
  moves_withRef s slot gen _ fun i hi => by
    split
    next => exact .refl _
    next c hc =>
      split
      next => exact .refl _
      next hlim =>
        exact (moves_commit s i c (defined_of_names hi) ((ownClaim_eq_some s p i c).1 hc).1 (by simpa using hlim)).trans
          (moves_serveWaits _)

/-- A claim that goes changes nothing else of the point (R28, R39). -/
theorem move_dropClaim (s : State) (i : SlotNo) (c : Claim) (hc : (s.slot i).claim = some c) :
    Move s (s.setSlot i { s.slot i with claim := none }) :=
  move_setSlot s i _ ⟨rfl, rfl, rfl, rfl, .inl rfl, fun g hg => by simp [hg, PointSlot.freed] at hc,
    fun h => ⟨h.inRange, h.limits, by simp, h.count, h.confirm, h.condition⟩⟩ rfl rfl

theorem moves_ownDrop (s : State) (p : Port) (slot gen : Byte) : Moves s (ownDrop p slot gen s).1 :=
  moves_withRef s slot gen _ fun i _ => by
    split
    next => exact .refl _
    next c hc => exact (move_dropClaim s i c ((ownClaim_eq_some s p i c).1 hc).1).moves

/-! ## The CLASS and LIST requests -/

theorem moves_ownConfig (s : State) (cls source : Byte) (period : Word16) : Moves s (ownConfig cls source period s).1 := by
  unfold ownConfig
  split
  next c src _ _ =>
    split
    next => exact .refl _
    next =>
      split
      next => exact .refl _
      next h =>
        exact (Move.sched _ (.book c { s.cls c with source := src, period := period } rfl rfl rfl rfl rfl id rfl
          (.inr (by simpa using h)))).moves
  next => exact .refl _

theorem moves_ownStart (s : State) (cls : Byte) : Moves s (ownStart cls s).1 := by
  unfold ownStart
  split
  next => exact .refl _
  next c _ =>
    split
    next => exact .refl _
    next h => exact (Move.sched _ (.start c (by simpa using h))).moves

theorem moves_stopClass (s : State) (c : ClassNo) : Moves s (s.stopClass c) := by
  unfold stopClass
  split
  next => exact .refl _
  next => exact .refl _
  next h => exact (Move.sched _ (.stop c (.inl h))).moves
  next h =>
    split
    next hj => exact (Move.sched _ (.stop c (.inr (by simp [hj])))).moves
    next j hj =>
      split
      next hp => exact (Move.sched _ (.stop c (.inr (by simp [hj, hp])))).moves
      next hp =>
        refine (Move.sched _ (.stopping c j.job h ?_)).moves
        rw [hj, ← hp]

theorem moves_ownStop (s : State) (cls : Byte) : Moves s (ownStop cls s).1 := by
  unfold ownStop
  split
  next => exact .refl _
  next c _ => exact moves_stopClass s c

theorem moves_trigger (s : State) (c : ClassNo) : Moves s (s.trigger c).1 := by
  unfold trigger
  split
  next h => exact (Move.sched _ (.pass c h)).moves
  next =>
    exact (Move.sched _ (.book c { s.cls c with overruns := min 255 ((s.cls c).overruns + 1) } rfl rfl rfl rfl rfl
      (fun _ => min_le_left ..) rfl (.inl rfl))).moves
  next => exact .refl _
  next => exact .refl _

theorem moves_ownTrigger (s : State) (cls : Byte) : Moves s (ownTrigger cls s).1 := by
  unfold ownTrigger
  split
  next => exact .refl _
  next c _ =>
    split
    next => exact .refl _
    next s' o h =>
      have := moves_trigger s c
      rwa [h] at this

theorem moves_ownClassStatus (s : State) (cls clear : Byte) : Moves s (ownClassStatus cls clear s).1 := by
  unfold ownClassStatus
  split
  next => exact .refl _
  next c _ _ =>
    exact (Move.sched _ (.book c { s.cls c with overruns := 0 } rfl rfl rfl rfl rfl (fun _ => Nat.zero_le _) rfl
      (.inl rfl))).moves
  next => exact .refl _

/-- The point is listed in the class (R47). -/
def ListedIn (s : State) (c : ClassNo) (i : SlotNo) : Prop :=
  ∃ e ∈ (s.cls c).list, e.slot = i ∧ e.gen = (s.slot i).gen

theorem membership_eq_none_iff (s : State) (i : SlotNo) : s.membership i = none ↔ ∀ c, ¬s.ListedIn c i := by
  rw [membership_eq_none]
  simp only [ListedIn, not_exists, not_and, imp_iff_not_or, ne_eq]

/-- Where a point is listed in one class at most, that class says whether its stale timer may run (R50). -/
theorem listedActive_iff_of_one {s : State} {i : SlotNo} (h : ∀ c d, s.ListedIn c i → s.ListedIn d i → c = d) :
    s.listedActive i = true ↔ ∃ c, s.ListedIn c i ∧ (s.cls c).state ≠ .stopped := by
  unfold listedActive
  cases hm : s.membership i with
  | none =>
    have := (membership_eq_none_iff s i).1 hm
    simp [this]
  | some x =>
    obtain ⟨c, k⟩ := x
    obtain ⟨e, he, hslot, hgen⟩ := membership_entry s i c k hm
    have hc : s.ListedIn c i := ⟨e, List.mem_of_getElem? he, hslot, hgen⟩
    simp only [bne_iff_ne, ne_eq]
    constructor
    · exact fun hs => ⟨c, hc, hs⟩
    · rintro ⟨d, hd, hs⟩
      rwa [h c d hc hd]

/-- A point whose timer is started by its insertion is listed in the class, and in no other (R48, R50). -/
theorem listedActive_insertEntry (s : State) (c : ClassNo) (k : Nat) (i : SlotNo) (g : Generation)
    (hi : s.names i g = true) (hlisted : s.membership i = none) (hk : k ≤ (s.cls c).list.length)
    (hstate : (s.cls c).state ≠ .stopped) :
    (s.insertEntry c k { slot := i, gen := g }).listedActive i = true := by
  have hnone := (membership_eq_none_iff s i).1 hlisted
  have hgen := ((names_iff s i g).1 hi).2
  have hcls (d : ClassNo) (hd : c ≠ d) : (s.insertEntry c k { slot := i, gen := g }).cls d = s.cls d :=
    cls_setCls_ne _ _ _ _ hd
  have hother (d : ClassNo) (hd : (s.insertEntry c k { slot := i, gen := g }).ListedIn d i) : d = c := by
    by_contra hne
    obtain ⟨e, he, hslot⟩ := hd
    rw [hcls d (Ne.symm hne)] at he
    exact hnone d ⟨e, he, hslot⟩
  rw [listedActive_iff_of_one fun d d' hd hd' => (hother d hd).trans (hother d' hd').symm]
  refine ⟨c, ⟨{ slot := i, gen := g }, ?_, rfl, ?_⟩, ?_⟩
  · simp only [insertEntry, cls_setCls_self]
    exact (List.mem_insertIdx hk).2 (.inl rfl)
  · exact hgen.symm
  · simpa [insertEntry] using hstate

/-- The start of the stale timer of a point that is listed in an active class (R50). -/
theorem moves_startTimer (s : State) (i : SlotNo) (hd : (s.slot i).state = .defined) (hl : s.listedActive i = true) :
    Moves s (s.startTimer i) := by
  unfold startTimer
  split
  next => exact .refl _
  next ms hms =>
    exact (Move.slot i { s.slot i with staleTimer := some (s.now + ms * Config.msTick) }
      (PointSlot.evolves_staleTimer _ _ fun g hg => absurd hd (by simp [hg, PointSlot.freed]))
      (.inr (.inr ⟨hl, ms, hms, rfl⟩))).moves

theorem moves_ownInsert (s : State) (cls slot gen position : Byte) : Moves s (ownInsert cls slot gen position s).1 := by
  unfold ownInsert
  split
  next => exact .refl _
  next c _ =>
    split
    next => exact .refl _
    next =>
      refine moves_withRef s slot gen _ fun i hi => ?_
      split
      next => exact .refl _
      next hlisted =>
        split
        next => exact .refl _
        next hk =>
          split
          next => exact .refl _
          next hroom =>
            have hlisted : s.membership i = none := by simpa using hlisted
            have hk : position.toNat ≤ (s.cls c).list.length := Nat.not_lt.1 hk
            have hinsert := Move.sched _ (SchedMove.insert c position.toNat i gen hi hlisted hk (Nat.not_le.1 hroom))
            simp only
            split
            next hstate =>
              refine hinsert.moves.trans ?_
              have hactive : (s.cls c).state ≠ .stopped := by
                simp only [insertEntry, cls_setCls_self] at hstate
                rcases hstate with h | h <;> simp [h]
              exact moves_startTimer _ i (defined_of_names hi) (listedActive_insertEntry s c _ i gen hi hlisted hk hactive)
            next => exact hinsert.moves

theorem moves_ownRemove (s : State) (cls slot gen : Byte) : Moves s (ownRemove cls slot gen s).1 := by
  unfold ownRemove
  split
  next => exact .refl _
  next c _ =>
    refine moves_withRef s slot gen _ fun i hi => ?_
    split
    next => exact .refl _
    next k hk => exact (Move.sched _ (.remove c k i gen hi hk)).moves

theorem moves_ownListRead (s : State) (cls : Byte) : Moves s (ownListRead cls s).1 := by
  unfold ownListRead
  split <;> exact .refl _

/-! ## The NOTICE requests -/

theorem moves_ownFetch (s : State) (p : Port) : Moves s (ownFetch p s).1 := by
  unfold ownFetch
  split
  next => exact .refl _
  next u data h => exact moves_fetch s u p data h

theorem moves_ownWait (s : State) (p : Port) (t : Tag) (timeout : Word16) : Moves s (ownWait p t timeout s).1 := by
  unfold ownWait
  split
  next => exact .refl _
  next =>
    split
    next => exact .refl _
    next =>
      split
      next u data h => exact moves_fetch s u p data h
      next => exact (move_setWaits ..).moves

theorem moves_acknowledge (s : State) (i : SlotNo) (n : Notice) (hn : s.notice i = some n) :
    Moves s (s.acknowledge i n) := by
  unfold acknowledge
  split
  next => exact (move_removeNotice s i).moves
  next f _ =>
    refine ((move_countRaise s).moves.move (?_ : Move s.countRaise (s.renewNotice i n f))).trans (moves_serveWaits _)
    exact move_setNotice _ i _ n hn fun hl => ⟨hl.1, by simp [Notice.fresh], rfl⟩

theorem moves_ownAck (s : State) (p : Port) (slot gen : Byte) : Moves s (ownAck p slot gen s).1 :=
  moves_withRef s slot gen _ fun i _ => by
    split
    next => exact .refl _
    next n hn =>
      split
      next => exact moves_acknowledge s i n hn
      next => exact .refl _

/-! ## The ACTION requests -/

theorem budgetOf_range (b : Byte) (n : Nat) (h : budgetOf b = some n) : 1 ≤ n ∧ n ≤ 255 := by
  unfold budgetOf at h
  split at h
  next => cases h
  next hb =>
    cases h
    have := b.isLt
    refine ⟨Nat.pos_of_ne_zero fun e => hb ?_, by omega⟩
    exact BitVec.eq_of_toNat_eq (by simpa using e)

theorem moves_ownCreate (s : State) (triggers output : Byte) (drive : Word16) (budget flags : Byte) :
    Moves s (ownCreate triggers output drive budget flags s).1 := by
  unfold ownCreate
  split
  next hn _ =>
    split
    next => exact .refl _
    next a ha =>
      have hfree : (s.action a).state = .free := by simpa using List.find?_some ha
      refine (Move.action a _ (by
        intro h
        simp only [ActionRec.Legal, hfree] at h
        exact ⟨budgetOf_range _ _ hn, h.1.symm⟩)).moves
  next => exact .refl _

theorem moves_ownLink (s : State) (p : Port) (action slot gen : Byte) : Moves s (ownLink p action slot gen s).1 := by
  unfold ownLink
  split
  next => exact .refl _
  next a _ =>
    refine moves_withRef s slot gen _ fun i hi => ?_
    split
    next => exact .refl _
    next =>
      split
      next => exact .refl _
      next ha =>
        split
        next => exact .refl _
        next hl => exact (Move.link i a (defined_of_names hi) (by simpa using ha) (by simpa using hl)).moves

theorem moves_ownUnlink (s : State) (p : Port) (slot gen : Byte) : Moves s (ownUnlink p slot gen s).1 :=
  moves_withRef s slot gen _ fun i _ => by
    split
    next => exact .refl _
    next =>
      split
      next => exact .refl _
      next a ha => exact (Move.unlink i a ha).moves.move (move_dropSaved ..)

theorem moves_ownRearm (s : State) (action budget : Byte) : Moves s (ownRearm action budget s).1 := by
  unfold ownRearm
  split
  next a n _ hn =>
    split
    next => exact .refl _
    next =>
      exact (Move.action a _ (by exact fun _ => ⟨budgetOf_range _ _ hn, rfl⟩)).moves.move (move_dropSaved ..)
  next => exact .refl _

theorem moves_ownFree (s : State) (action : Byte) : Moves s (ownFree action s).1 := by
  unfold ownFree
  split
  next => exact .refl _
  next a _ =>
    split
    next => exact .refl _
    next hfree =>
      split
      next => exact .refl _
      next huse =>
        refine (move_dropSaved ..).moves.move (.action a _ fun h => ⟨⟨rfl, rfl⟩, ?_⟩)
        change 0 = (s.action a).linkCount
        change (s.action a).Legal at h
        revert h hfree huse
        simp only [ActionRec.Legal]
        cases (s.action a).state with
        | free => exact fun h => absurd rfl h
        | armed => exact fun _ huse _ => (Nat.eq_zero_of_not_pos fun hpos => huse ⟨rfl, hpos⟩).symm
        | spent => exact fun _ _ h => h.1.symm

theorem moves_ownActionRead (s : State) (action : Byte) : Moves s (ownActionRead action s).1 := by
  unfold ownActionRead
  split <;> exact .refl _

/-! ## The OUTPUT requests -/

theorem moves_ownWrite (s : State) (p : Port) (channel : Byte) (value : Word16) :
    Moves s (ownWrite p channel value s).1 := by
  unfold ownWrite
  split
  next =>
    split
    next => exact .refl _
    next => exact (move_setOutput s _ _ (by rfl)).moves
  next => exact .refl _

theorem moves_ownPin (s : State) (p : Port) (channel : Byte) (ha : s.attached p = true) : Moves s (ownPin p channel s).1 := by
  unfold ownPin
  split
  next => exact .refl _
  next o _ =>
    split
    next => exact .refl _
    next => exact (Move.pin o _ fun q hq => by cases hq; exact ha).moves

theorem moves_ownUnpin (s : State) (p : Port) (channel : Byte) : Moves s (ownUnpin p channel s).1 := by
  unfold ownUnpin
  split
  next => exact .refl _
  next o _ =>
    split
    next => exact (Move.pin o _ fun q hq => by cases hq).moves
    next => exact .refl _

theorem moves_ownFallback (s : State) (p : Port) (channel presence : Byte) (value : Word16) :
    Moves s (ownFallback p channel presence value s).1 := by
  unfold ownFallback
  split
  next =>
    split
    next => exact .refl _
    next => exact (move_setOutput s _ _ (by rfl)).moves
  next => exact .refl _

theorem moves_ownOutputRead (s : State) (channel : Byte) : Moves s (ownOutputRead channel s).1 := by
  unfold ownOutputRead
  split <;> exact .refl _

end State

/-- The meaning of every request is a sequence of moves, on a port that has the session the request needs (R169). -/
theorem IsOwner.moves {p : Port} {t : Tag} {needs : Bool} {own : State → State × Reply} (h : IsOwner p t needs own)
    (s : State) (hs : needs = true → s.attached p = true) : Moves s (own s).1 := by
  cases h with
  | badRequest => exact .refl _
  | attach a b => exact State.moves_ownAttach ..
  | set a b => exact State.moves_ownSet ..
  | status a => exact State.moves_ownStatus ..
  | cancel a => exact State.moves_ownCancel ..
  | detach => exact State.moves_ownDetach ..
  | define b => exact State.moves_ownDefine ..
  | find k => exact State.moves_ownFind ..
  | read a b => exact State.moves_withRef _ _ _ _ fun _ _ => .refl _
  | summary a => exact State.moves_ownSummary ..
  | retire a b => exact State.moves_ownRetire ..
  | sample a b => exact State.moves_withRef _ _ _ _ fun _ _ => (State.move_enqueue ..).moves
  | editOpen a b => exact State.moves_ownOpen _ _ _ _ (hs rfl)
  | editSet a b c d e => exact State.moves_ownEditSet _ _ _ _ _ _ _ (hs rfl)
  | editCommit a b => exact State.moves_ownCommit ..
  | editDrop a b => exact State.moves_ownDrop ..
  | classConfig a b c => exact State.moves_ownConfig ..
  | classStart a => exact State.moves_ownStart ..
  | classStop a => exact State.moves_ownStop ..
  | classTrigger a => exact State.moves_ownTrigger ..
  | classStatus a b => exact State.moves_ownClassStatus ..
  | listInsert a b c d => exact State.moves_ownInsert ..
  | listRemove a b c => exact State.moves_ownRemove ..
  | listRead a => exact State.moves_ownListRead ..
  | convert a b => exact State.moves_ownConvert ..
  | fetch => exact State.moves_ownFetch ..
  | wait a => exact State.moves_ownWait ..
  | ack a b => exact State.moves_ownAck ..
  | create a b c d e => exact State.moves_ownCreate ..
  | link a b c => exact State.moves_ownLink ..
  | unlink a b => exact State.moves_ownUnlink ..
  | rearm a b => exact State.moves_ownRearm ..
  | free a => exact State.moves_ownFree ..
  | actionRead a => exact State.moves_ownActionRead ..
  | write a b => exact State.moves_ownWrite ..
  | pin a => exact State.moves_ownPin _ _ _ (hs rfl)
  | unpin a => exact State.moves_ownUnpin ..
  | fallback a b c => exact State.moves_ownFallback ..
  | outputRead a => exact State.moves_ownOutputRead ..

end Sys2Proof.Machine
end

section
/-! SUPPORT. Every event as moves, so that a law kept by every move is kept by every step (R28, R52, R57, R73 to R82, R105,
R127, R164 to R191). -/

namespace Sys2Proof.Machine
namespace State

/-! ## The converter (R57, R74 to R82) -/

theorem evaluate_setFrontEnd (s : State) (fe : FrontEnd) (j : ScanJob) (raw : RawReading) :
    (s.setFrontEnd fe).evaluate j raw = (s.evaluate j raw).setFrontEnd fe := by
  have happlies : (s.setFrontEnd fe).sampleApplies j = s.sampleApplies j := rfl
  unfold evaluate
  rw [happlies, applySample_setFrontEnd]
  split <;> rfl

theorem evaluate_points (s : State) (j : ScanJob) (raw : RawReading) : SameButPoints s (s.evaluate j raw) := by
  unfold evaluate
  split
  next => exact (applySample_points s _ raw).1
  next => exact SameButPoints.refl s

theorem SameButPoints.frontEnd {s u : State} (h : SameButPoints s u) : u.frontEnd = s.frontEnd := by
  obtain ⟨-, -, -, -, -, -, h7, -⟩ := h
  exact h7

/-- The evaluator may take its sample before the converter goes IDLE: neither looks at the other. -/
theorem freeConverter_evaluate (s : State) (j : ScanJob) (raw r : RawReading) :
    (s.freeConverter r).evaluate j raw = (s.evaluate j raw).freeConverter r := by
  unfold freeConverter
  rw [evaluate_setFrontEnd, (evaluate_points s j raw).frontEnd]

theorem sampleApplies_iff (s : State) (j : ScanJob) : s.sampleApplies j = true ↔ s.names j.slot j.gen = true ∧
    (s.slot j.slot).cfg.channel = j.channel ∧ (s.slot j.slot).cfg.gain = j.gain := by
  simp [sampleApplies, and_assoc]

theorem moves_evaluate (s : State) (j : ScanJob) (raw : RawReading) : Moves s (s.evaluate j raw) := by
  unfold evaluate
  split
  next h => exact moves_applySample s _ raw (defined_of_names ((sampleApplies_iff s j).1 h).1)
  next => exact .refl _

theorem moves_completeSample (s : State) (j : DirectJob) (scan : ScanJob) (raw : RawReading) :
    Moves s (s.completeSample j scan raw) := by
  unfold completeSample
  split
  next h =>
    exact ((moves_applySample s _ raw (defined_of_names ((sampleApplies_iff s scan).1 h).1)).trans
      (moves_serveWaits _)).move (move_answerTag ..)
  next => exact (move_answerTag ..).moves

theorem moves_completeDirect (s : State) (j : DirectJob) (ch : ChannelNo) (g : Gain) (raw : RawReading) :
    Moves s (s.completeDirect j ch g raw) := by
  unfold completeDirect
  split
  next => exact .refl _
  next =>
    split
    next => exact (move_answerTag ..).moves
    next => exact moves_completeSample ..

/-- The completion of the job in the converter (R58, R74). -/
theorem moves_complete (s : State) (j : HeldJob) (raw : RawReading) (h : s.frontEnd.converter.held = some j) :
    Moves s ((s.freeConverter raw).completeJob j raw) := by
  cases j with
  | scan c scan =>
    unfold completeJob
    simp only [freeConverter_evaluate]
    refine ((moves_evaluate s scan raw).move (.sched _ (.finish c scan raw ?_))).trans (moves_serveWaits _)
    rw [(evaluate_points s scan raw).frontEnd, h]
  | direct j ch g =>
    refine Moves.trans (move_setFrontEnd s _ fun c k => ?_).moves (moves_completeDirect (s.freeConverter raw) j ch g raw)
    rw [h]
    simp [Converter.held]

theorem move_enter (s : State) (j : DirectJob) (c c' : ChannelNo) (g g' : Gain) (h : s.frontEnd.converter = .idle) :
    Move s (s.enter (.direct j c g) c' g') := by
  unfold enter
  split
  next => exact move_setFrontEnd s _ fun _ _ => by simp [h, Converter.held]
  next => exact move_setFrontEnd s _ fun _ _ => by simp [h, Converter.held]

theorem lowestPosted_job (s : State) (c : ClassNo) (j : ScanJob) (h : s.lowestPosted = some (c, j)) :
    (s.cls c).job = some { job := j, phase := .posted } := by
  obtain ⟨_, d, _, -, hd, -⟩ := List.findSome?_eq_some_iff.1 h
  obtain ⟨k, hk, he⟩ := Option.map_eq_some_iff.1 hd
  cases he
  unfold postedJob at hk
  split at hk
  next => cases hk
  next x hx =>
    obtain ⟨job, phase⟩ := x
    cases phase with
    | posted => cases hk; exact hx
    | converting => cases hk

theorem moves_grantNext (s : State) : Moves s s.grantNext := by
  unfold grantNext
  split
  next => exact .refl _
  next => exact .refl _
  next hidle =>
    split
    next j _ _ =>
      have hpop : Move s s.popQueue := move_setFrontEnd s _ fun _ _ => Iff.rfl
      unfold grantDirect
      split
      next => exact hpop.moves.move (move_enter s.popQueue _ _ _ _ _ hidle)
      next =>
        split
        next => exact hpop.moves.move (move_enter s.popQueue _ _ _ _ _ hidle)
        next => exact hpop.moves.move (move_answerTag ..)
    next c j _ hp => exact (Move.sched _ (.grant c j hidle (lowestPosted_job s c j hp))).moves
    next => exact .refl _

/-! ## Timers (R28, R52, R105, R127) -/

/-- The restart of a class's period timer as its trigger comes (R52). -/
theorem move_restartPeriod (s : State) (c : ClassNo) (due next : Nat) (h : (s.cls c).periodTimer = some due) :
    Move s (s.setCls c { s.cls c with periodTimer := some next }) :=
  .sched _ (.book c { s.cls c with periodTimer := some next } rfl rfl rfl rfl rfl id (by rw [h]; rfl) (.inl rfl))

theorem moves_foldl {α : Type} (f : State → α → State) (hf : ∀ s a, Moves s (f s a)) (l : List α) (s : State) :
    Moves s (l.foldl f s) := by
  induction l generalizing s with
  | nil => exact .refl _
  | cons a l ih => exact (hf s a).trans (ih _)

theorem moves_goesStale (s : State) (i : SlotNo) (due : Nat) (h : (s.slot i).staleTimer = some due) :
    Moves s (((s.setSlot i { s.slot i with quality := .stale, staleTimer := none }).raise i .stale
      (s.slot i).condition).serveWaits) := by
  have hwrite : Move s (s.setSlot i { s.slot i with quality := .stale, staleTimer := none }) :=
    .slot i _ ⟨rfl, rfl, rfl, rfl, .inr rfl, fun g hg => by simp [hg, PointSlot.freed] at h,
      fun h => ⟨h.inRange, h.limits, h.staged, h.count, h.confirm, h.condition⟩⟩ (.inl rfl)
  refine (hwrite.moves.trans (moves_raise _ i _ _ ?_)).trans (moves_serveWaits _)
  unfold Live
  rw [slot_setSlot_self]
  exact fun e => Quality.noConfusion (congrArg PointSlot.quality e)

end State

/-- What the part does on its own is a sequence of moves. -/
theorem Occurs.moves {s u : State} (h : Occurs s u) : Moves s u := by
  cases h with
  | nothing => exact .refl _
  | period c due h =>
    exact ((s.move_advanceTo due).moves.move (State.move_restartPeriod (s.advanceTo due) c due _ h)).trans
      (State.moves_trigger _ c)
  | edge line =>
    refine State.moves_foldl _ (fun s c => ?_) _ s
    split
    next => exact State.moves_trigger s c
    next => exact .refl _
  | grant => exact State.moves_grantNext s
  | settles j due h =>
    refine (s.move_advanceTo due).moves.move (State.move_setFrontEnd _ _ fun c k => ?_)
    simp [h, Converter.held]
  | completes j due raw h =>
    exact (s.move_advanceTo due).moves.trans (State.moves_complete (s.advanceTo due) j raw (by simp [h, Converter.held]))
  | lapses i c h => exact (s.move_advanceTo c.due).moves.move (State.move_dropClaim (s.advanceTo c.due) i c h)
  | goesStale i due h => exact (s.move_advanceTo due).moves.trans (State.moves_goesStale (s.advanceTo due) i due h)
  | timesOut p w h => exact ((s.move_advanceTo w.due).moves.move (State.move_setWaits ..)).move (State.move_answerTag ..)

/-- What a port does with a transaction is a sequence of moves. -/
theorem Acts.moves {p : Port} {s u : State} (h : Acts p s u) : Moves s u := by
  cases h with
  | counts => exact (State.move_countFrameError s p).moves
  | refuses t kind code => exact (State.move_refuse s p t kind code).moves
  | begins => exact (State.move_setPort s p _ (by rfl)).moves.move (State.move_endCollect _ p)
  | notAttached t kind => exact (State.move_openTag s p t kind).moves.move (State.move_answerTag ..)
  | owner t kind needs own hown hfresh hroom hsession =>
    refine ((State.move_openTag s p t kind).moves.trans (hown.moves _ fun hn => ?_)).trans (State.moves_giveReply ..)
    rw [State.openTag_attached]
    exact hsession hn

namespace State

/-- The service of the waits ends no session and opens none. -/
@[simp] theorem serveWaits_session (s : State) (p : Port) : (s.serveWaits.port p).session = (s.port p).session := by
  have hone (u : State) (w : WaitRec) : ((u.serveWait w).port p).session = (u.port p).session := by
    unfold serveWait
    split
    next => rfl
    next x data h =>
      obtain ⟨y, -, he⟩ := Option.map_eq_some_iff.1 h
      cases he
      obtain ⟨r, hr, hs, -⟩ := answerTag_records
        ((u.setNotice y.1 (some { y.2 with state := .delivered w.port })).dropWait w.port) w.port w.tag .ok
        (noticeBytes y.1 y.2)
      rw [hr, port_setPort]
      split
      next e => rw [hs, e, dropWait, setWaits_port, setNotice_port]
      next => rw [dropWait, setWaits_port, setNotice_port]
  have hall (ws : List WaitRec) (u : State) : ((ws.foldl serveWait u).port p).session = (u.port p).session := by
    induction ws generalizing u with
    | nil => rfl
    | cons w ws ih => exact (ih _).trans (hone u w)
  exact hall s.waits s

/-- What PRSTn clears of a port without a session. -/
theorem move_portReset (s : State) (p : Port) (h : (s.port p).session = .detached) : Move s (s.portReset p) :=
  move_setPort s p _ h.symm

/-- Only the model's own fields, the clock and the RSTn line differ, and the clock has not gone back. -/
def SameRecords (s u : State) : Prop :=
  ∃ q n m r, u = { s with pending := q, freeIndex := n, now := m, rstAsserted := r } ∧ s.now ≤ m

end State

/-- Whatever happens is a reset of the part or a sequence of moves, after the RSTn line where it is released. -/
theorem Happens.moves {s u : State} (h : Happens s u) : (∃ a b c, u = s.afterReset a b c) ∨
    ∃ r, (s.rstAsserted = false → r = false) ∧ Moves { s with rstAsserted := r } u := by
  have same {v : State} (h : Moves s v) : (∃ a b c, v = s.afterReset a b c) ∨
      ∃ r, (s.rstAsserted = false → r = false) ∧ Moves { s with rstAsserted := r } v :=
    .inr ⟨s.rstAsserted, id, h⟩
  have hline (p : Port) : Move s (s.setPort p { s.port p with prstAsserted := true, selectIgnored := false }) :=
    State.move_setPort s p _ rfl
  cases h with
  | nothing => exact same (.refl _)
  | resets a b c => exact .inl ⟨a, b, c, rfl⟩
  | rstnReleases a b hrst =>
    exact .inr ⟨false, fun _ => rfl, (State.move_setPort { s with rstAsserted := false } .H { s.portH with selectIgnored := a }
      rfl).moves.move (State.move_setPort _ .L { s.portL with selectIgnored := b } rfl)⟩
  | prstnHeld p hrst => exact same (hline p).moves
  | prstnEnds p hrst hp =>
    refine same ((((hline p).moves.trans (State.moves_endSession _ p)).move (State.move_portReset _ p ?_)).move
      (State.move_updateAttention _))
    rw [State.endSession_eq, State.serveWaits_session, State.sessionEnded_port, if_pos rfl]
  | prstnClears p hrst hp hs =>
    refine same (((hline p).moves.move (State.move_portReset _ p ?_)).move (State.move_updateAttention _))
    rw [State.port_setPort_self]
    exact hs
  | prstnReleases p a hp => exact same (State.move_setPort s p _ (by rfl)).moves
  | ignores p c => exact same (State.move_setPort s p _ (by rfl)).moves
  | transacts p v hrst hp hu =>
    exact same (((State.move_endCollect s p).moves.trans hu.moves).move (State.move_updateAttention _))
  | collects p n => exact same ((State.move_collectOn s p n).moves.move (State.move_updateAttention _))
  | collectsLast p n =>
    exact same (((State.move_collectOn s p n).moves.move (State.move_endCollect _ p)).move (State.move_updateAttention _))
  | event v hrst hu => exact same (hu.moves.move (State.move_updateAttention _))

/-- A law that every move keeps, that does not look at the model's own fields, and that the reset values obey, is kept by
every step. -/
theorem step_keeps {P : State → Prop} (hrecords : ∀ s u, P s → s.SameRecords u → P u)
    (hmove : ∀ s u, P s → Move s u → P u) (hreset : ∀ s a b c, P (State.afterReset s a b c)) {s t : State}
    (hs : P s) (h : step s = .next t) : P t := by
  obtain ⟨u, ⟨q, n, m, hu, hm, -⟩, ht⟩ := step_happens h
  rcases ht.moves with ⟨a, b, c, rfl⟩ | ⟨r, -, hmoves⟩
  · exact hreset u a b c
  · exact hmoves.keeps hmove (hrecords s _ hs ⟨q, n, m, r, by rw [hu], hm⟩)

/-- No move touches the model's queue or the RSTn line. -/
theorem Move.lines {s u : State} (h : Move s u) : u.pending = s.pending ∧ u.rstAsserted = s.rstAsserted := by
  cases h with
  | rest _ h => exact ⟨h.pending, h.rst⟩
  | attach p r => cases p <;> exact ⟨rfl, rfl⟩
  | sessionEnds p => exact ⟨(State.sessionEnded_rest s p).1, (State.sessionEnded_rest s p).2.2.1⟩
  | retire i => exact ⟨(State.retire_retired s i).pending, (State.retire_retired s i).rst⟩
  | drive a => exact ⟨(State.useBudget_same s a).1, (State.useBudget_same s a).2.2.2.1⟩
  | sched _ h => exact ⟨h.samePoints.pending, h.samePoints.rst⟩
  | _ => exact ⟨rfl, rfl⟩

theorem Moves.lines {s u : State} (h : Moves s u) : u.pending = s.pending ∧ u.rstAsserted = s.rstAsserted :=
  h.keeps (P := fun v => v.pending = s.pending ∧ v.rstAsserted = s.rstAsserted)
    (fun _ _ h hm => ⟨hm.lines.1.trans h.1, hm.lines.2.trans h.2⟩) ⟨rfl, rfl⟩

/-- Settles O1. -/
theorem stepRunsTheFrontCommand : Obligations.StepRunsTheFrontCommand := fun _ _ _ => rfl

/-- Settles O2: what a command can do is a reset, which keeps the model's queue, or moves, none of which touches it. -/
theorem everyCommandCompletes : Obligations.EveryCommandCompletes := by
  intro s c
  obtain ⟨u, hu, hhap⟩ := exec_happens c s
  refine ⟨u, hu, ?_⟩
  rcases hhap.moves with ⟨a, b, d, rfl⟩ | ⟨r, -, hm⟩
  · rfl
  · exact hm.lines.1

end Sys2Proof.Machine
end

section
/-! SUPPORT. The reset values obey every law; the laws of the points, the owners, the configurations and the link counts
are kept by every step, because every move keeps them. -/

namespace Sys2Proof.Machine

/-! ## The reset values (R26, R45, R86, R133, R134, R151, R163, R183, R190) -/

section Reset

variable (s : State) (a b c : Bool)

@[simp] theorem afterReset_slot (i : SlotNo) : (s.afterReset a b c).slot i = PointSlot.freed 0 := by
  simp [State.afterReset, State.slot, State.reset]

@[simp] theorem afterReset_cls (d : ClassNo) : (s.afterReset a b c).cls d = ScanClass.reset := by
  simp [State.afterReset, State.cls, State.reset]

@[simp] theorem afterReset_notice (i : SlotNo) : (s.afterReset a b c).notice i = none := by
  simp [State.afterReset, State.notice, State.reset]

@[simp] theorem afterReset_action (d : ActionNo) : (s.afterReset a b c).action d = ActionRec.reset := by
  simp [State.afterReset, State.action, State.reset]

@[simp] theorem afterReset_output (o : OutputNo) : (s.afterReset a b c).output o = OutputChannel.reset := by
  simp [State.afterReset, State.output, State.reset]

@[simp] theorem afterReset_port (p : Port) : (s.afterReset a b c).port p =
    { PortRec.reset with prstAsserted := if p = .H then b else c } := by
  cases p <;> rfl

theorem reset_eq_afterReset : State.reset = State.reset.afterReset false false false := rfl

theorem keyLaw_afterReset : KeyLaw (s.afterReset a b c) :=
  ⟨fun e he => (List.not_mem_nil he).elim, fun i hi => by simp [PointSlot.freed] at hi⟩

theorem freeSlotLaw_afterReset : FreeSlotLaw (s.afterReset a b c) := fun i _ => by simp [PointSlot.freed]

theorem claimLaw_afterReset : ClaimLaw (s.afterReset a b c) := fun i d hd => by simp [PointSlot.freed] at hd

theorem legal_afterReset (i : SlotNo) : ((s.afterReset a b c).slot i).Legal := by
  rw [afterReset_slot]
  exact PointSlot.freed_legal 0

theorem noticeLaw_afterReset : NoticeLaw (s.afterReset a b c) := fun i n hn => by simp at hn

theorem pinLaw_afterReset : PinLaw (s.afterReset a b c) := fun o p hp => by simp [OutputChannel.reset] at hp

theorem actionLaw_afterReset : ActionLaw (s.afterReset a b c) := by
  rw [actionLaw_iff]
  intro d
  have hlinks : (s.afterReset a b c).linkedPoints d = 0 :=
    List.countP_eq_zero.2 fun i _ => by simp [PointSlot.freed]
  rw [hlinks, afterReset_action]
  exact ⟨rfl, rfl, rfl⟩

theorem schedulerLaw_afterReset : SchedulerLaw (s.afterReset a b c) := by
  refine ⟨⟨fun d e he => by simp [ScanClass.reset] at he, fun d d' k m e f hk => by simp [ScanClass.reset] at hk⟩,
    fun d => ?_, fun d j => ?_⟩
  · rw [afterReset_cls]
    exact ⟨by decide, by decide, by decide, rfl⟩
  · rw [afterReset_cls]
    simp [ScanClass.reset, State.afterReset, State.reset, Converter.held]

theorem staleTimerLaw_afterReset : StaleTimerLaw (s.afterReset a b c) := fun i due h => by simp [PointSlot.freed] at h

theorem periodTimerLaw_afterReset : PeriodTimerLaw (s.afterReset a b c) := fun d => by simp [ScanClass.reset]

theorem portLaw_afterReset : PortLaw (s.afterReset a b c) := by
  have h (line : Bool) : ({ PortRec.reset with prstAsserted := line } : PortRec).Legal := by
    refine ⟨Nat.zero_le _, List.nodup_nil, List.nodup_nil, fun t => ?_, Nat.zero_le _, Nat.zero_le _, Nat.zero_le _,
      (by decide : 1 ≤ Config.defaultTimeoutSteps), (by decide : Config.defaultTimeoutSteps ≤ 255), trivial⟩
    simp [PortRec.reset]
  exact ⟨h b, h c⟩

theorem waitingLaw_afterReset : WaitingLaw (s.afterReset a b c) := by
  have hnone : (s.afterReset a b c).waitingRequests = [] := rfl
  refine ⟨fun j hj => (List.not_mem_nil hj).elim, ?_, fun p t => ?_, fun x hx => ?_, List.nodup_nil⟩
  · rw [hnone]
    exact List.nodup_nil
  · simp [hnone, PortRec.reset]
  · simp [hnone] at hx

theorem servedLaw_afterReset : ServedLaw (s.afterReset a b c) := fun _ hw => (List.not_mem_nil hw).elim

theorem attentionLaw_afterReset : AttentionLaw (s.afterReset a b c) := by
  have hneeded (p : Port) : (s.afterReset a b c).attentionNeeded p = false := by
    have hnone : (s.afterReset a b c).anyDeliverable p = false :=
      (State.anyDeliverable_eq_false _ p).2 fun i => by simp [State.deliverable]
    simp [State.attentionNeeded, hnone, PortRec.reset]
  exact ⟨(hneeded .H).symm, (hneeded .L).symm⟩

theorem heldLaw_afterReset : HeldLaw (s.afterReset a b c) := by
  refine ⟨fun p _ => by simp [PortRec.reset], fun h => ?_⟩
  have ha : a = true := h
  rw [ha]
  rfl

end Reset

/-- Settles O53: the reset values are those of a device reset, and each law is read off them. -/
theorem resetObeysTheLaws : Obligations.ResetObeysTheLaws := by
  unfold Obligations.ResetObeysTheLaws
  rw [reset_eq_afterReset]
  obtain ⟨hcfg, hpend, hcond⟩ := (legal_iff _).1 (legal_afterReset State.reset false false false)
  exact ⟨keyLaw_afterReset _ _ _ _, freeSlotLaw_afterReset _ _ _ _, claimLaw_afterReset _ _ _ _, hcfg, hpend, hcond,
    schedulerLaw_afterReset _ _ _ _, staleTimerLaw_afterReset _ _ _ _, periodTimerLaw_afterReset _ _ _ _, noticeLaw_afterReset _ _ _ _,
    actionLaw_afterReset _ _ _ _, pinLaw_afterReset _ _ _ _, portLaw_afterReset _ _ _ _, waitingLaw_afterReset _ _ _ _,
    servedLaw_afterReset _ _ _ _, attentionLaw_afterReset _ _ _ _, heldLaw_afterReset ..⟩

/-! ## The laws of the points, the owners and the links (R1 to R22, R27, R94, R97, R109, R134, R151) -/

/-- Settles O54: every move keeps the key map's law, and no other field is looked at. -/
theorem stepsKeepTheKeyMap : Obligations.StepsKeepTheKeyMap := by
  intro s t hs h
  exact step_keeps (P := KeyLaw) (fun s u h ⟨_, _, _, _, hu, _⟩ => by subst hu; exact h) (fun _ _ h hm => hm.keyLaw h)
    keyLaw_afterReset hs h

/-- Settles O55: a FREE slot stays clear through every move; with it, each move keeps claims, notices and pins with an
ATTACHED owner. -/
theorem stepsKeepOwnersAttached : Obligations.StepsKeepOwnersAttached := by
  intro s t hfree h
  refine ⟨?_, fun hclaim => ?_, fun hnotice => ?_, fun hpin => ?_⟩
  · exact step_keeps (P := FreeSlotLaw) (fun s u h ⟨_, _, _, _, hu, _⟩ => by subst hu; exact h)
      (fun _ _ h hm => hm.freeSlotLaw h) freeSlotLaw_afterReset hfree h
  · exact step_keeps (P := ClaimLaw) (fun s u h ⟨_, _, _, _, hu, _⟩ => by subst hu; exact h)
      (fun _ _ h hm => hm.claimLaw h) claimLaw_afterReset hclaim h
  · exact (step_keeps (P := fun s => FreeSlotLaw s ∧ NoticeLaw s)
      (fun s u h ⟨_, _, _, _, hu, _⟩ => by subst hu; exact h)
      (fun _ _ h hm => ⟨hm.freeSlotLaw h.1, hm.noticeLaw h.1 h.2⟩)
      (fun s a b c => ⟨freeSlotLaw_afterReset s a b c, noticeLaw_afterReset s a b c⟩) ⟨hfree, hnotice⟩ h).2
  · exact step_keeps (P := PinLaw) (fun s u h ⟨_, _, _, _, hu, _⟩ => by subst hu; exact h)
      (fun _ _ h hm => hm.pinLaw h) pinLaw_afterReset hpin h

/-- Settles O56: every move leaves a legal record legal. -/
theorem stepsKeepConfigurationsLegal : Obligations.StepsKeepConfigurationsLegal := by
  intro s t hcfg hpend hcond h
  rw [← legal_iff]
  exact step_keeps (P := fun s => ∀ i, (s.slot i).Legal) (fun s u h ⟨_, _, _, _, hu, _⟩ => by subst hu; exact h)
    (fun _ _ h hm => hm.legal h) legal_afterReset ((legal_iff s).2 ⟨hcfg, hpend, hcond⟩) h

/-- Settles O58: every move keeps the link counts; a definition takes a FREE slot, which has no link. -/
theorem stepsKeepLinkCounts : Obligations.StepsKeepLinkCounts := by
  intro s t hfree hact h
  exact (step_keeps (P := fun s => FreeSlotLaw s ∧ ActionLaw s)
    (fun s u h ⟨_, _, _, _, hu, _⟩ => by subst hu; exact h)
    (fun _ _ h hm => ⟨hm.freeSlotLaw h.1, hm.actionLaw h.1 h.2⟩)
    (fun s a b c => ⟨freeSlotLaw_afterReset s a b c, actionLaw_afterReset s a b c⟩) ⟨hfree, hact⟩ h).2

end Sys2Proof.Machine
end

section
/-! SUPPORT. The service of the waiting NOTICE.WAIT requests, one wait at a time: what a service does to its port, and that
nothing stays deliverable to a port that still waits (R119, R121, R125, R126). -/

namespace Sys2Proof.Machine
namespace State

/-! ## What may make a notice deliverable (R119) -/

/-- Of the notices, those that have changed are not PENDING; where one has not, its point's route has not either. -/
def NoNewNotice (s u : State) : Prop :=
  ∀ i, (u.notice i = s.notice i ∧ (u.slot i).cfg.route = (s.slot i).cfg.route) ∨
    ∀ n, u.notice i = some n → n.state ≠ .pending

theorem NoNewNotice.refl (s : State) : NoNewNotice s s := fun _ => .inl ⟨rfl, rfl⟩

theorem NoNewNotice.trans {s u v : State} (h : NoNewNotice s u) (h' : NoNewNotice u v) : NoNewNotice s v := by
  intro i
  rcases h' i with ⟨e, r⟩ | e
  · rw [e, r]
    exact h i
  · exact .inr e

/-- Without a new PENDING notice, and with the port's threshold and session as they were, nothing becomes deliverable. -/
theorem NoNewNotice.deliverable {s u : State} (h : NoNewNotice s u) {p : Port}
    (hthreshold : (u.port p).threshold = (s.port p).threshold) (hsession : (u.port p).session = (s.port p).session)
    {i : SlotNo} (hi : s.deliverable p i = none) : u.deliverable p i = none := by
  rcases h i with ⟨hn, hr⟩ | hn
  · rw [deliverable_congr u s p i hn hr hthreshold hsession, hi]
  · rw [Option.eq_none_iff_forall_ne_some]
    intro n he
    obtain ⟨hsome, hpending, -⟩ := (deliverable_eq_some u p i n).1 he
    exact hn n hsome hpending

theorem noNewNotice_setNotice (s : State) (i : SlotNo) (n : Option Notice) (h : ∀ m, n = some m → m.state ≠ .pending) :
    NoNewNotice s (s.setNotice i n) := by
  intro j
  rw [notice_setNotice]
  split
  next => exact .inr h
  next => exact .inl ⟨rfl, rfl⟩

/-! ## One service -/

theorem answerTag_frame (s : State) (p : Port) (t : Tag) (code : ResultCode) (data : List Byte) :
    NoNewNotice s (s.answerTag p t code data) ∧ (s.answerTag p t code data).waits = s.waits ∧
      (s.answerTag p t code data).frontEnd = s.frontEnd ∧
      ∀ q, ((s.answerTag p t code data).port q).threshold = (s.port q).threshold ∧
        ((s.answerTag p t code data).port q).session = (s.port q).session := by
  obtain ⟨r, h, hsession, hthreshold, -⟩ := answerTag_records s p t code data
  rw [h]
  refine ⟨fun i => .inl (by simp), by simp, by simp, fun q => ?_⟩
  rw [port_setPort]
  split
  next e => exact e ▸ ⟨hthreshold, hsession⟩
  next => exact ⟨rfl, rfl⟩

/-- A wait to whose port nothing is deliverable is passed over (R125). -/
theorem serveWait_idle (s : State) (w : WaitRec) (h : ∀ i, s.deliverable w.port i = none) : s.serveWait w = s := by
  simp [serveWait, (fetch_eq_none s w.port).2 h]

/-- A wait is served with the best notice deliverable to its port (R125). -/
theorem serveWait_delivers (s : State) (w : WaitRec) (h : ∃ i, s.deliverable w.port i ≠ none) :
    ∃ i n, s.IsBest w.port i n ∧ s.serveWait w =
      ((s.setNotice i (some { n with state := .delivered w.port })).dropWait w.port).answerTag w.port w.tag .ok
        (noticeBytes i n) := by
  obtain ⟨i, n, hbest, -, hfetch⟩ := fetch_of_deliverable s w.port h
  exact ⟨i, n, hbest, by simp [serveWait, hfetch]⟩

/-- What one service leaves: no new PENDING notice, the list of waits with or without its port's, the converter and the
settings of the ports as they were. -/
theorem serveWait_frame (s : State) (w : WaitRec) : NoNewNotice s (s.serveWait w) ∧
    (s.serveWait w).frontEnd = s.frontEnd ∧
    (∀ q, ((s.serveWait w).port q).threshold = (s.port q).threshold ∧ ((s.serveWait w).port q).session = (s.port q).session) ∧
    ((s.serveWait w).waits = s.waits.filter (fun v => v.port != w.port) ∨
      (s.serveWait w = s ∧ ∀ i, s.deliverable w.port i = none)) := by
  by_cases hd : ∀ i, s.deliverable w.port i = none
  · rw [serveWait_idle s w hd]
    exact ⟨.refl s, rfl, fun _ => ⟨rfl, rfl⟩, .inr ⟨rfl, hd⟩⟩
  · obtain ⟨i, n, -, he⟩ := serveWait_delivers s w (not_forall.1 hd)
    obtain ⟨hnew, hwaits, hfe, hports⟩ := answerTag_frame
      ((s.setNotice i (some { n with state := .delivered w.port })).dropWait w.port) w.port w.tag .ok (noticeBytes i n)
    rw [← he] at hnew hwaits hfe hports
    refine ⟨NoNewNotice.trans ?_ hnew, hfe, fun q => ?_, .inl hwaits⟩
    · exact noNewNotice_setNotice s i _ fun m hm => by cases hm; simp
    · simpa [dropWait] using hports q

/-! ## The service of all of them -/

/-- The waits beside one port's, where a port has one wait at most. -/
theorem filter_port_ne (passed rest : List WaitRec) (w : WaitRec)
    (hn : ((passed ++ w :: rest).map WaitRec.port).Nodup) :
    (passed ++ w :: rest).filter (fun v => v.port != w.port) = passed ++ rest := by
  have hne : ∀ v ∈ passed ++ rest, (v.port != w.port) = true := by
    intro v hv
    rw [List.map_append, List.map_cons, List.nodup_middle, List.nodup_cons, ← List.map_append] at hn
    exact bne_iff_ne.2 fun e => hn.1 (e ▸ List.mem_map_of_mem hv)
  rw [List.filter_append, List.filter_cons_of_neg (by simp),
    List.filter_eq_self.2 fun v hv => hne v (List.mem_append_left _ hv),
    List.filter_eq_self.2 fun v hv => hne v (List.mem_append_right _ hv)]

/-- A property that each service of a wait on the list keeps, the service of all of them keeps; the waits passed over so
far are the ones to whose ports nothing is deliverable. -/
theorem foldl_serveWait_induction {P : State → Prop}
    (hone : ∀ u w, P u → w ∈ u.waits → (u.waits.map WaitRec.port).Nodup → P (u.serveWait w)) :
    ∀ (ws passed : List WaitRec) (u : State), P u → u.waits = passed ++ ws → (u.waits.map WaitRec.port).Nodup →
      (∀ w ∈ passed, ∀ i, u.deliverable w.port i = none) →
      P (ws.foldl serveWait u) ∧ ((ws.foldl serveWait u).waits.map WaitRec.port).Nodup ∧
        ∀ w ∈ (ws.foldl serveWait u).waits, ∀ i, (ws.foldl serveWait u).deliverable w.port i = none := by
  intro ws
  induction ws with
  | nil =>
    intro passed u hP hw hn hpassed
    rw [List.append_nil] at hw
    exact ⟨hP, hn, by rwa [List.foldl_nil, hw]⟩
  | cons w ws ih =>
    intro passed u hP hw hn hpassed
    have hP' := hone u w hP (by simp [hw]) hn
    obtain ⟨hnew, -, hports, hcases⟩ := serveWait_frame u w
    rw [List.foldl_cons]
    rcases hcases with hwaits | ⟨he, hidle⟩
    · have hrest : (u.serveWait w).waits = passed ++ ws := by
        rw [hwaits, hw]
        exact filter_port_ne passed ws w (hw ▸ hn)
      refine ih passed _ hP' hrest ?_ fun v hv i => hnew.deliverable (hports _).1 (hports _).2 (hpassed v hv i)
      rw [hrest]
      rw [hw, List.map_append, List.map_cons, List.nodup_middle, List.nodup_cons, ← List.map_append] at hn
      exact hn.2
    · rw [he]
      refine ih (passed ++ [w]) u hP (by simp [hw]) hn fun v hv i => ?_
      rcases List.mem_append.1 hv with hv | hv
      · exact hpassed v hv i
      · rw [List.mem_singleton.1 hv]
        exact hidle i

theorem serveWaits_induction {P : State → Prop}
    (hone : ∀ u w, P u → w ∈ u.waits → (u.waits.map WaitRec.port).Nodup → P (u.serveWait w)) (s : State) (hs : P s)
    (hn : (s.waits.map WaitRec.port).Nodup) : P s.serveWaits :=
  (foldl_serveWait_induction hone s.waits [] s hs rfl hn (fun _ h => (List.not_mem_nil h).elim)).1

/-- After the service, nothing is deliverable to a port that still waits (R121). -/
theorem serveWaits_served (s : State) (hn : (s.waits.map WaitRec.port).Nodup) :
    ∀ w ∈ s.serveWaits.waits, ∀ i, s.serveWaits.deliverable w.port i = none :=
  (foldl_serveWait_induction (P := fun _ => True) (fun _ _ _ _ _ => trivial) s.waits [] s trivial rfl hn
    (fun _ h => (List.not_mem_nil h).elim)).2.2

/-- The service of the waits begins with the first of them (R125). -/
theorem serveWaits_cons (s : State) (w : WaitRec) (rest : List WaitRec) (hw : s.waits = w :: rest) :
    s.serveWaits = rest.foldl serveWait (s.serveWait w) := by
  rw [serveWaits, hw, List.foldl_cons]

/-- The service of a wait on a port that has the request open (R125). -/
theorem serveWait_served (s : State) (passed rest : List WaitRec) (w : WaitRec) (k : Byte)
    (hw : s.waits = passed ++ w :: rest) (hn : (s.waits.map WaitRec.port).Nodup) (ht : s.Waits w.port w.tag k)
    (hd : ∃ i, s.deliverable w.port i ≠ none) : ∃ i n, s.IsBest w.port i n ∧ s.serveWait w =
      ((s.setNotice i (some { n with state := .delivered w.port })).setWaits (passed ++ rest)).served w.port w.tag k .ok
        (noticeBytes i n) := by
  obtain ⟨i, n, hbest, he⟩ := serveWait_delivers s w hd
  refine ⟨i, n, hbest, ?_⟩
  have hdrop : (s.setNotice i (some { n with state := .delivered w.port })).dropWait w.port =
      (s.setNotice i (some { n with state := .delivered w.port })).setWaits (passed ++ rest) := by
    rw [dropWait, setNotice_waits, hw, filter_port_ne passed rest w (hw ▸ hn)]
  rw [he, hdrop]
  exact answerTag_of_waits _ _ _ k _ _ (by simpa [Waits] using ht)

end State

/-- Settles O45, by induction on the waits in the order of their acceptance. -/
theorem waitsAreServedInOrder : Obligations.WaitsAreServedInOrder := by
  refine ⟨State.serveWaits_served, State.serveWaits_idle, fun s w rest k hw hn ht hd => ?_,
    fun s v w k hw hne hv ht hd => ?_⟩
  · obtain ⟨i, n, hbest, he⟩ := State.serveWait_served s [] rest w k hw hn ht hd
    refine ⟨i, n, hbest, ?_⟩
    rw [State.serveWaits_cons s w rest hw, he]
    simp [State.serveWaits, State.served]
  · have hn : (s.waits.map WaitRec.port).Nodup := by simpa [hw] using hne
    obtain ⟨i, n, hbest, he⟩ := State.serveWait_served s [v] [] w k hw hn ht hd
    refine ⟨i, n, hbest, ?_⟩
    rw [State.serveWaits_cons s v [w] hw, State.serveWait_idle s v hv]
    exact he

end Sys2Proof.Machine
end

section
/-! SUPPORT. A port's record through its traffic: a tag that opens, an answer that joins the queue, a refusal, and each part
of a COLLECT leave a legal record legal (R163, R167 to R172). -/

namespace Sys2Proof.Machine

/-! ## The record beside the COLLECT under way -/

/-- R163, R171 of a port's record: all of its law but the COLLECT under way. -/
structure PortRec.Sound (r : PortRec) : Prop where
  room : r.openTags.length ≤ 4
  distinct : (r.openTags.map OpenTag.tag).Nodup
  answers : (r.queue.map Answer.tag).Nodup
  paired : ∀ t, t ∈ r.queue.map Answer.tag ↔ ∃ e ∈ r.openTags, e.tag = t ∧ e.place = .answered
  refusals : r.refusals.length ≤ 2
  errors : r.frameErrors ≤ 255
  dropped : r.dropped ≤ 255
  timeout : 1 ≤ r.timeoutSteps ∧ r.timeoutSteps ≤ 255

theorem PortRec.legal_iff (r : PortRec) : r.Legal ↔ r.Sound ∧ r.CollectLegal := by
  constructor
  · rintro ⟨h1, h2, h3, h4, h5, h6, h7, h8, h9, h10⟩
    exact ⟨⟨h1, h2, h3, h4, h5, h6, h7, h8, h9⟩, h10⟩
  · rintro ⟨⟨h1, h2, h3, h4, h5, h6, h7, h8, h9⟩, h10⟩
    exact ⟨h1, h2, h3, h4, h5, h6, h7, h8, h9, h10⟩

/-- The traffic that the law of the COLLECT under way speaks of. -/
theorem PortRec.CollectLegal.congr {r r' : PortRec} (h : r.CollectLegal) (hc : r'.collecting = r.collecting)
    (hrefusals : ∀ a, r.refusals.head? = some a → r'.refusals.head? = some a)
    (hqueue : ∀ a, r.queue.head? = some a → r'.queue.head? = some a) : r'.CollectLegal := by
  unfold PortRec.CollectLegal at h ⊢
  rw [hc]
  split
  next refusal a rest hcollect =>
    simp only [hcollect] at h
    obtain ⟨hhead, hrest⟩ := h
    refine ⟨?_, hrest⟩
    cases refusal with
    | true => exact hrefusals a hhead
    | false => exact hqueue a hhead
  next hcollect => simpa only [hcollect] using h
  next hcollect => simpa only [hcollect] using h
  next => trivial
  next => trivial

theorem head?_append_singleton {α : Type} (l : List α) (a b : α) (h : l.head? = some a) : (l ++ [b]).head? = some a := by
  rw [List.head?_append, h]
  rfl

theorem PortRec.collectLegal_of_none {r : PortRec} (h : r.collecting = none) : r.CollectLegal := by
  unfold PortRec.CollectLegal
  rw [h]
  trivial

/-! ## Tags, answers and refusals (R167 to R171) -/

/-- A record whose tags, answers and refusals are as they were. -/
theorem PortRec.Sound.settings {r r' : PortRec} (h : r.Sound) (htags : r'.openTags = r.openTags)
    (hqueue : r'.queue = r.queue) (hrefusals : r'.refusals = r.refusals) (herrors : r'.frameErrors ≤ 255)
    (hdropped : r'.dropped ≤ 255) (htimeout : 1 ≤ r'.timeoutSteps ∧ r'.timeoutSteps ≤ 255) : r'.Sound :=
  ⟨htags ▸ h.room, htags ▸ h.distinct, hqueue ▸ h.answers, by rw [hqueue, htags]; exact h.paired, hrefusals ▸ h.refusals,
    herrors, hdropped, htimeout⟩

/-- A record as it opens a tag (R169). -/
theorem PortRec.Sound.opened {r : PortRec} (h : r.Sound) (t : Tag) (k : Byte) (hfresh : ∀ e ∈ r.openTags, e.tag ≠ t)
    (hroom : r.openTags.length < 4) :
    PortRec.Sound { r with openTags := r.openTags ++ [{ tag := t, kind := k, place := .waiting }] } := by
  refine ⟨?_, ?_, h.answers, fun u => ?_, h.refusals, h.errors, h.dropped, h.timeout⟩
  · simpa using hroom
  · rw [List.map_append, List.nodup_append]
    refine ⟨h.distinct, by simp, fun a ha b hb => ?_⟩
    obtain ⟨e, he, rfl⟩ := List.mem_map.1 ha
    simp only [List.map_cons, List.map_nil, List.mem_singleton] at hb
    exact hb ▸ hfresh e he
  · rw [h.paired]
    simp [or_and_right, exists_or]

/-- A record as a waiting request of it is answered (R170, R171, R177). -/
theorem PortRec.Sound.answered {r : PortRec} (h : r.Sound) (e : OpenTag) (he : e ∈ r.openTags)
    (hwaits : e.place = .waiting) (k : Byte) (code : ResultCode) (data : List Byte) :
    PortRec.Sound { r with
      openTags := r.openTags.map fun x => if x.tag = e.tag then { x with place := .answered } else x
      queue := r.queue ++ [{ tag := e.tag, kind := k, code := code, data := data }] } := by
  have htag (x : OpenTag) : (if x.tag = e.tag then { x with place := .answered } else x : OpenTag).tag = x.tag := by
    split <;> rfl
  have hnew : e.tag ∉ r.queue.map Answer.tag := by
    rw [h.paired]
    rintro ⟨x, hx, ht, hplace⟩
    rw [List.inj_on_of_nodup_map h.distinct hx he ht, hwaits] at hplace
    cases hplace
  refine ⟨by simpa using h.room, ?_, ?_, fun u => ?_, h.refusals, h.errors, h.dropped, h.timeout⟩
  · simpa [List.map_map, Function.comp_def, htag] using h.distinct
  · rw [List.map_append, List.nodup_append]
    refine ⟨h.answers, by simp, fun a ha b hb => ?_⟩
    simp only [List.map_cons, List.map_nil, List.mem_singleton] at hb
    exact fun hab => hnew (hb ▸ hab ▸ ha)
  · rw [List.map_append, List.mem_append, h.paired]
    constructor
    · rintro (⟨x, hx, ht, hplace⟩ | hu)
      · refine ⟨_, List.mem_map_of_mem hx, (htag x).trans ht, ?_⟩
        split
        next => rfl
        next => exact hplace
      · refine ⟨_, List.mem_map_of_mem he, (htag e).trans (List.mem_singleton.1 hu).symm, ?_⟩
        rw [if_pos rfl]
    · rintro ⟨y, hy, ht, hplace⟩
      obtain ⟨x, hx, rfl⟩ := List.mem_map.1 hy
      rw [htag] at ht
      by_cases hxe : x.tag = e.tag
      · exact .inr (by simp [← ht, hxe])
      · rw [if_neg hxe] at hplace
        exact .inl ⟨x, hx, ht, hplace⟩

/-- A record without its traffic (R181). -/
theorem PortRec.Sound.cleared {r : PortRec} (h : r.Sound) :
    PortRec.Sound { r with session := .detached, openTags := [], queue := [], refusals := [] } :=
  ⟨Nat.zero_le _, List.nodup_nil, List.nodup_nil, fun t => by simp, Nat.zero_le _, h.errors, h.dropped, h.timeout⟩

/-! ## COLLECT (R172) -/

/-- A record as the answer at the head of its queue leaves, which closes its tag (R170). -/
theorem PortRec.Sound.collected {r : PortRec} (h : r.Sound) (a : Answer) (rest : List Answer) (hq : r.queue = a :: rest) :
    PortRec.Sound { r with queue := rest, openTags := r.openTags.filter fun e => e.tag != a.tag } := by
  have hanswers := h.answers
  rw [hq, List.map_cons, List.nodup_cons] at hanswers
  refine ⟨(List.length_filter_le ..).trans h.room, h.distinct.sublist (List.filter_sublist.map _), hanswers.2,
    fun t => ?_, h.refusals, h.errors, h.dropped, h.timeout⟩
  have hpaired := h.paired t
  rw [hq, List.map_cons, List.mem_cons] at hpaired
  constructor
  · intro ht
    obtain ⟨e, he, het, hplace⟩ := hpaired.1 (.inr ht)
    refine ⟨e, List.mem_filter.2 ⟨he, ?_⟩, het, hplace⟩
    exact bne_iff_ne.2 fun hea => hanswers.1 (by rwa [← hea, het])
  · rintro ⟨e, he, het, hplace⟩
    obtain ⟨he, hne⟩ := List.mem_filter.1 he
    exact (hpaired.2 ⟨e, he, het, hplace⟩).resolve_left fun hta => bne_iff_ne.1 hne (het.trans hta)

namespace State

theorem collectChoice_head (s : State) (p : Port) (refusal : Bool) (a : Answer)
    (h : s.collectChoice p = some (refusal, a)) :
    (if refusal then (s.port p).refusals else (s.port p).queue).head? = some a := by
  unfold collectChoice at h
  split at h
  next hr => cases h; simp [hr]
  next hr hq => cases h; simp [hq]
  next => cases h

theorem legal_beginCollect {s : State} {p : Port} (h : (s.port p).Legal) : ((s.beginCollect p).port p).Legal := by
  rw [PortRec.legal_iff] at h ⊢
  rw [beginCollect, port_setPort_self]
  refine ⟨h.1.settings rfl rfl rfl h.1.errors h.1.dropped h.1.timeout, ?_⟩
  unfold PortRec.CollectLegal
  cases hc : s.collectChoice p with
  | none => rfl
  | some x =>
    obtain ⟨refusal, a⟩ := x
    exact ⟨collectChoice_head s p refusal a hc, chosenBytes_ne_nil (some (refusal, a)), List.suffix_refl _⟩

/-- What a COLLECT has chosen is at the head of its queue or its slots, so the record without it is sound (R170, R172). -/
theorem sound_removeChosen {s : State} {p : Port} (h : (s.port p).Legal) (c : Option (Bool × Answer)) (rest : List Byte)
    (hc : (s.port p).collecting = some (.frame c rest)) : ((s.removeChosen p c).port p).Sound := by
  obtain ⟨hsound, hcollect⟩ := (PortRec.legal_iff _).1 h
  unfold PortRec.CollectLegal at hcollect
  rw [hc] at hcollect
  rcases c with _ | ⟨_ | _, a⟩
  · exact hsound
  · rw [removeChosen, port_setPort_self]
    obtain ⟨as, hq⟩ := List.head?_eq_some_iff.1 hcollect.1
    have hq : (s.port p).queue = a :: as := hq
    rw [hq]
    exact hsound.collected a as hq
  · rw [removeChosen, port_setPort_self]
    exact ⟨hsound.room, hsound.distinct, hsound.answers, hsound.paired,
      (by rw [List.length_tail]; exact (Nat.sub_le ..).trans hsound.refusals), hsound.errors, hsound.dropped, hsound.timeout⟩

theorem legal_clockBytes {s : State} {p : Port} (h : (s.port p).Legal) (n : Nat) : ((s.clockBytes p n).port p).Legal := by
  obtain ⟨hsound, hcollect⟩ := (PortRec.legal_iff _).1 h
  have hdrive (u : State) (bytes : List Byte) (left : CollectPhase) (hu : (u.port p).Sound)
      (hleft : PortRec.CollectLegal { u.port p with collecting := some left }) : ((u.drive p bytes left).port p).Legal := by
    rw [drive, port_setPort_self, PortRec.legal_iff]
    exact ⟨hu.settings rfl rfl rfl hu.errors hu.dropped hu.timeout, hleft.congr rfl (fun _ => id) fun _ => id⟩
  unfold PortRec.CollectLegal at hcollect
  cases hc : (s.port p).collecting with
  | none => simpa only [clockBytes, hc] using h
  | some phase =>
    rw [hc] at hcollect
    cases phase with
    | ignored => simpa only [clockBytes, hc] using h
    | summary rest =>
      rw [clockBytes_of_summary s p n rest hc]
      exact hdrive s _ _ hsound (by simp only [PortRec.CollectLegal, List.length_drop]; exact (Nat.sub_le ..).trans hcollect)
    | frame c rest =>
      rcases Nat.lt_or_ge n rest.length with hn | hn
      · rw [clockBytes_of_lt s p n c rest hc hn]
        refine hdrive s _ _ hsound ?_
        unfold PortRec.CollectLegal
        rcases c with _ | ⟨refusal, a⟩
        · have hrest : rest = [0x00] := hcollect
          have h0 : n = 0 := by simpa [hrest] using hn
          simp [hrest, h0]
        · obtain ⟨hhead, -, hsuffix⟩ := hcollect
          refine ⟨hhead, ?_, (List.drop_suffix n rest).trans hsuffix⟩
          exact fun hnil => absurd (List.drop_eq_nil_iff.1 hnil) (Nat.not_le.2 hn)
      · rw [clockBytes_of_le s p n c rest hc hn]
        refine hdrive _ _ _ (sound_removeChosen h c rest hc) ?_
        simp only [PortRec.CollectLegal, List.length_drop]
        exact Nat.sub_le 2 _

/-- Each part of a COLLECT leaves its port's record legal (R172). -/
theorem legal_collectOn {s : State} {p : Port} (h : (s.port p).Legal) (n : Nat) : ((s.collectOn p n).port p).Legal := by
  unfold collectOn
  split
  next => exact legal_clockBytes (legal_beginCollect h) n
  next => exact legal_clockBytes h n

/-! ## One port's record through the operations on tags -/

theorem waitingTag_eq_some {s : State} {p : Port} {t : Tag} {e : OpenTag} (h : s.waitingTag p t = some e) :
    e ∈ (s.port p).openTags ∧ e.tag = t ∧ e.place = .waiting := by
  refine ⟨List.mem_of_find?_eq_some h, ?_⟩
  simpa using List.find?_some h

/-- An answer leaves every record legal; a port without an open tag it leaves as it was (R170). -/
theorem legal_answerTag {s : State} {q : Port} (h : (s.port q).Legal) (p : Port) (t : Tag) (code : ResultCode)
    (data : List Byte) : ((s.answerTag p t code data).port q).Legal := by
  unfold answerTag
  split
  next => exact h
  next e he =>
    obtain ⟨hmem, rfl, hplace⟩ := waitingTag_eq_some he
    rw [port_setPort]
    split
    next hpq =>
      subst hpq
      obtain ⟨hsound, hcollect⟩ := (PortRec.legal_iff _).1 h
      rw [PortRec.legal_iff]
      exact ⟨hsound.answered e hmem hplace e.kind code data,
        hcollect.congr rfl (fun _ => id) fun a ha => head?_append_singleton _ _ _ ha⟩
    next => exact h

theorem answerTag_port_of_no_tags (s : State) (p q : Port) (t : Tag) (code : ResultCode) (data : List Byte)
    (h : (s.port q).openTags = []) : (s.answerTag p t code data).port q = s.port q := by
  unfold answerTag
  split
  next => rfl
  next e he =>
    rw [port_setPort]
    split
    next hpq =>
      subst hpq
      exact absurd (waitingTag_eq_some he).1 (by simp [h])
    next => rfl

theorem serveWait_port (s : State) (w : WaitRec) (q : Port) : (s.serveWait w).port q = s.port q ∨
    ∃ (data : List Byte) (u : State), u.port q = s.port q ∧ (s.serveWait w).port q = (u.answerTag w.port w.tag .ok data).port q := by
  by_cases hd : ∀ i, s.deliverable w.port i = none
  · exact .inl (by rw [serveWait_idle s w hd])
  · obtain ⟨i, n, -, he⟩ := serveWait_delivers s w (not_forall.1 hd)
    refine .inr ⟨_, _, ?_, congrArg (fun u => u.port q) he⟩
    rw [dropWait, setWaits_port, setNotice_port]

theorem serveWaits_keeps {P : State → Prop} (hone : ∀ u w, P u → P (u.serveWait w)) (s : State) (hs : P s) :
    P s.serveWaits := by
  have hall (ws : List WaitRec) (u : State) (hu : P u) : P (ws.foldl serveWait u) := by
    induction ws generalizing u with
    | nil => exact hu
    | cons w ws ih => exact ih _ (hone u w hu)
  exact hall s.waits s hs

theorem legal_serveWaits {s : State} {q : Port} (h : (s.port q).Legal) : (s.serveWaits.port q).Legal := by
  refine serveWaits_keeps (P := fun u => (u.port q).Legal) (fun u w hu => ?_) s h
  rcases serveWait_port u w q with e | ⟨data, v, hv, e⟩
  · rwa [e]
  · rw [e]
    exact legal_answerTag (hv ▸ hu) ..

theorem serveWaits_port_of_no_tags (s : State) (q : Port) (h : (s.port q).openTags = []) :
    s.serveWaits.port q = s.port q := by
  refine serveWaits_keeps (P := fun u => u.port q = s.port q) (fun u w hu => ?_) s rfl
  rcases serveWait_port u w q with e | ⟨data, v, hv, e⟩
  · rw [e, hu]
  · rw [e, answerTag_port_of_no_tags _ _ _ _ _ _ (by rw [hv, hu, h]), hv, hu]

theorem legal_openTag {s : State} {p : Port} (h : (s.port p).Legal) (t : Tag) (k : Byte)
    (hfresh : ∀ e ∈ (s.port p).openTags, e.tag ≠ t) (hroom : (s.port p).openTags.length < 4) :
    ((s.openTag p t k).port p).Legal := by
  obtain ⟨hsound, hcollect⟩ := (PortRec.legal_iff _).1 h
  rw [openTag, port_setPort_self, PortRec.legal_iff]
  exact ⟨hsound.opened t k hfresh hroom, hcollect.congr rfl (fun _ => id) fun _ => id⟩

theorem legal_refuse {s : State} {p : Port} (h : (s.port p).Legal) (t : Tag) (k : Byte) (code : ResultCode) :
    ((s.refuse p t k code).port p).Legal := by
  obtain ⟨hsound, hcollect⟩ := (PortRec.legal_iff _).1 h
  unfold refuse
  split
  next hlen =>
    rw [port_setPort_self, PortRec.legal_iff]
    refine ⟨⟨hsound.room, hsound.distinct, hsound.answers, hsound.paired, ?_, hsound.errors, hsound.dropped,
      hsound.timeout⟩, hcollect.congr rfl (fun a ha => head?_append_singleton _ _ _ ha) fun _ => id⟩
    simpa [Config.refusalCapacity] using hlen
  next =>
    rw [port_setPort_self, PortRec.legal_iff]
    exact ⟨hsound.settings rfl rfl rfl hsound.errors (min_le_left ..) hsound.timeout,
      hcollect.congr rfl (fun _ => id) fun _ => id⟩

end State
end Sys2Proof.Machine
end

section
/-! SUPPORT. The waiting requests beside the one request that an event is about to answer or has just accepted: each
operation on the tags, the direct queue, the converter and the waits keeps them paired with the WAITING tags (R76, R124,
R163, R177). -/

namespace Sys2Proof.Machine

/-- The waiting request that a held job is, if it is one (R84). -/
def HeldJob.requests : HeldJob → List DirectJob
  | .scan _ _ => []
  | .direct j _ _ => if j.disposition = .answer then [j] else []

namespace State

theorem convertingJob_of_held {s : State} {j : HeldJob} (h : s.frontEnd.converter.held = some j) :
    s.convertingJob = j.requests := by
  unfold convertingJob
  rw [h]
  cases j <;> rfl

theorem convertingJob_of_idle {s : State} (h : s.frontEnd.converter = .idle) : s.convertingJob = [] := by
  unfold convertingJob
  rw [h]
  rfl

/-- The law of the waiting requests, where the requests in `extra` have their tag open and WAITING and are in no list
(R177). -/
structure WaitingFor (s : State) (extra : List (Port × Tag)) : Prop where
  queued : ∀ j ∈ s.frontEnd.queue, j.disposition = .answer
  distinct : (s.waitingRequests ++ extra).Nodup
  paired : ∀ p t, (p, t) ∈ s.waitingRequests ++ extra ↔ ∃ e ∈ (s.port p).openTags, e.tag = t ∧ e.place = .waiting
  attached : ∀ x ∈ s.waitingRequests, s.attached x.1 = true
  waits : (s.waits.map WaitRec.port).Nodup

theorem waitingLaw_iff (s : State) : WaitingLaw s ↔ s.WaitingFor [] := by
  constructor
  · rintro ⟨h1, h2, h3, h4, h5⟩
    exact ⟨h1, by rwa [List.append_nil], fun p t => by rw [List.append_nil]; exact h3 p t, h4, h5⟩
  · rintro ⟨h1, h2, h3, h4, h5⟩
    rw [List.append_nil] at h2
    exact ⟨h1, h2, fun p t => by rw [← h3, List.append_nil], h4, h5⟩

/-- The same requests under the same tags, wherever they stand. -/
theorem WaitingFor.perm {s u : State} {l l' : List (Port × Tag)} (h : s.WaitingFor l)
    (hperm : (u.waitingRequests ++ l').Perm (s.waitingRequests ++ l))
    (htags : ∀ q, (u.port q).openTags = (s.port q).openTags) (hqueued : ∀ j ∈ u.frontEnd.queue, j.disposition = .answer)
    (hattached : ∀ x ∈ u.waitingRequests, u.attached x.1 = true) (hwaits : (u.waits.map WaitRec.port).Nodup) :
    u.WaitingFor l' :=
  ⟨hqueued, hperm.nodup_iff.2 h.distinct, fun p t => by rw [hperm.mem_iff, h.paired, htags], hattached, hwaits⟩

/-- The direct queue, the converter's request, the waits and the open tags are as they were. -/
structure SameRequests (s u : State) : Prop where
  queue : u.frontEnd.queue = s.frontEnd.queue
  converting : u.convertingJob = s.convertingJob
  waits : u.waits = s.waits
  tags : ∀ q, (u.port q).openTags = (s.port q).openTags

theorem SameRequests.waitingRequests {s u : State} (h : SameRequests s u) : u.waitingRequests = s.waitingRequests := by
  simp only [State.waitingRequests, h.queue, h.converting, h.waits]

theorem WaitingFor.congr {s u : State} {l : List (Port × Tag)} (h : s.WaitingFor l) (hsame : SameRequests s u)
    (hattached : ∀ x ∈ s.waitingRequests, s.attached x.1 = true → u.attached x.1 = true) : u.WaitingFor l :=
  h.perm (by rw [hsame.waitingRequests]) hsame.tags (hsame.queue ▸ h.queued)
    (fun x hx => by rw [hsame.waitingRequests] at hx; exact hattached x hx (h.attached x hx)) (hsame.waits ▸ h.waits)

/-! ## Tags that open and answers (R169, R170, R177) -/

theorem sameRequests_setPort (s : State) (p : Port) (r : PortRec) (h : r.openTags = (s.port p).openTags) :
    SameRequests s (s.setPort p r) := by
  refine ⟨by simp, ?_, by simp, fun q => ?_⟩
  · cases p <;> rfl
  · rw [port_setPort]
    split
    next e => exact e ▸ h
    next => rfl

theorem waitingRequests_setPort (s : State) (p : Port) (r : PortRec) :
    (s.setPort p r).waitingRequests = s.waitingRequests := by
  cases p <;> rfl

theorem attached_setPort (s : State) (p q : Port) (r : PortRec) (h : r.session = (s.port p).session) :
    (s.setPort p r).attached q = s.attached q := by
  simp only [State.attached, port_setPort]
  split
  next e => rw [h, e]
  next => rfl

theorem WaitingFor.opened {s : State} {l : List (Port × Tag)} (h : s.WaitingFor l) (p : Port) (t : Tag) (k : Byte)
    (hfresh : ∀ e ∈ (s.port p).openTags, e.tag ≠ t) : (s.openTag p t k).WaitingFor ((p, t) :: l) := by
  have hwr : (s.openTag p t k).waitingRequests = s.waitingRequests := waitingRequests_setPort ..
  refine ⟨by simpa using h.queued, ?_, fun q u => ?_, fun x hx => ?_, by simpa using h.waits⟩
  · rw [hwr, List.nodup_middle, List.nodup_cons]
    refine ⟨fun hmem => ?_, h.distinct⟩
    obtain ⟨e, he, ht, -⟩ := (h.paired p t).1 hmem
    exact hfresh e he ht
  · have hmem : (q, u) ∈ s.waitingRequests ++ (p, t) :: l ↔ (q, u) = (p, t) ∨ (q, u) ∈ s.waitingRequests ++ l := by
      simp only [List.mem_append, List.mem_cons]
      tauto
    rw [hwr, hmem, h.paired, openTag, port_setPort]
    by_cases hpq : p = q
    · subst hpq
      simp only [if_true, List.mem_append, List.mem_singleton, or_and_right, exists_or, exists_eq_left, Prod.mk.injEq,
        true_and, and_true]
      rw [or_comm, eq_comm (a := u)]
    · rw [if_neg hpq]
      simp [Ne.symm hpq]
  · rw [hwr] at hx
    rw [openTag_attached]
    exact h.attached x hx

/-- The answer of a request in no list: its tag is ANSWERED (R170, R177). -/
theorem WaitingFor.answered {s : State} {l : List (Port × Tag)} {p : Port} {t : Tag} (h : s.WaitingFor ((p, t) :: l))
    (code : ResultCode) (data : List Byte) : (s.answerTag p t code data).WaitingFor l := by
  have hmem (q : Port) (u : Tag) :
      (q, u) ∈ s.waitingRequests ++ l ↔ (q, u) ≠ (p, t) ∧ (q, u) ∈ s.waitingRequests ++ (p, t) :: l := by
    have hnodup := h.distinct
    rw [List.nodup_middle, List.nodup_cons] at hnodup
    constructor
    · refine fun hm => ⟨fun e => hnodup.1 (e ▸ hm), ?_⟩
      simp only [List.mem_append, List.mem_cons] at hm ⊢
      tauto
    · rintro ⟨hne, hm⟩
      simp only [List.mem_append, List.mem_cons] at hm ⊢
      tauto
  have hwr : (s.answerTag p t code data).waitingRequests = s.waitingRequests := by
    obtain ⟨r, hr, -⟩ := answerTag_records s p t code data
    rw [hr, waitingRequests_setPort]
  obtain ⟨-, hwaits, hfe, hports⟩ := answerTag_frame s p t code data
  have hnodup := h.distinct
  rw [List.nodup_middle, List.nodup_cons] at hnodup
  refine ⟨by rw [hfe]; exact h.queued, by rw [hwr]; exact hnodup.2, fun q u => ?_, fun x hx => ?_, by
    rw [hwaits]; exact h.waits⟩
  · rw [hwr, hmem, h.paired]
    obtain ⟨e₀, he₀, htag₀, hplace₀⟩ := (h.paired p t).1 (by simp)
    have hfind : (s.waitingTag p t).isSome = true := by
      rw [waitingTag, List.find?_isSome]
      exact ⟨e₀, he₀, by simp [htag₀, hplace₀]⟩
    obtain ⟨e₁, he₁⟩ := Option.isSome_iff_exists.1 hfind
    simp only [answerTag, he₁, port_setPort]
    by_cases hpq : p = q
    · subst hpq
      simp only [if_true, List.mem_map, exists_exists_and_eq_and, ne_eq, Prod.mk.injEq, true_and]
      constructor
      · rintro ⟨hne, e, he, htag, hplace⟩
        have hne' : e.tag ≠ t := by rwa [htag]
        exact ⟨e, he, by rw [if_neg hne']; exact ⟨htag, hplace⟩⟩
      · rintro ⟨e, he, htag, hplace⟩
        by_cases hte : e.tag = t
        · rw [if_pos hte] at hplace
          cases hplace
        · rw [if_neg hte] at htag hplace
          exact ⟨htag ▸ hte, e, he, htag, hplace⟩
    · rw [if_neg hpq]
      simp [Ne.symm hpq]
  · rw [hwr] at hx
    have := h.attached x hx
    rw [attached_iff] at this ⊢
    rwa [(hports _).2]

/-! ## Requests that leave their list to be answered, and requests that join one -/

theorem waitingRequests_eq (s : State) : s.waitingRequests = s.frontEnd.queue.map (fun j => (j.port, j.tag)) ++
    s.convertingJob.map (fun j => (j.port, j.tag)) ++ s.waits.map fun w => (w.port, w.tag) := by
  rw [waitingRequests, List.map_append]

/-- A request leaves its list, to be answered. -/
theorem WaitingFor.leaves {s u : State} {l : List (Port × Tag)} (h : s.WaitingFor l) (x : Port × Tag)
    (hperm : s.waitingRequests.Perm (x :: u.waitingRequests))
    (htags : ∀ q, (u.port q).openTags = (s.port q).openTags) (hattached : ∀ q, u.attached q = s.attached q)
    (hqueue : u.frontEnd.queue.Sublist s.frontEnd.queue) (hwaits : u.waits.Sublist s.waits) : u.WaitingFor (x :: l) :=
  h.perm (List.perm_middle.trans (hperm.append_right l).symm) htags (fun j hj => h.queued j (hqueue.subset hj))
    (fun y hy => by rw [hattached]; exact h.attached y (hperm.mem_iff.2 (List.mem_cons_of_mem _ hy)))
    (h.waits.sublist (hwaits.map _))

/-- A request joins a list, to wait (R76, R124). -/
theorem WaitingFor.joins {s u : State} {l : List (Port × Tag)} {x : Port × Tag} (h : s.WaitingFor (x :: l))
    (hperm : u.waitingRequests.Perm (x :: s.waitingRequests)) (hx : s.attached x.1 = true)
    (htags : ∀ q, (u.port q).openTags = (s.port q).openTags) (hattached : ∀ q, u.attached q = s.attached q)
    (hqueued : ∀ j ∈ u.frontEnd.queue, j.disposition = .answer) (hwaits : (u.waits.map WaitRec.port).Nodup) :
    u.WaitingFor l :=
  h.perm ((hperm.append_right l).trans List.perm_middle.symm) htags hqueued
    (fun y hy => by
      rw [hattached]
      rcases List.mem_cons.1 (hperm.mem_iff.1 hy) with rfl | hy
      · exact hx
      · exact h.attached y hy) hwaits

theorem dropWait_attached (s : State) (p q : Port) : (s.dropWait p).attached q = s.attached q := by
  simp [State.attached, dropWait]

/-- A NOTICE.WAIT leaves the list (R125, R127, R128). -/
theorem WaitingFor.dropped {s : State} {l : List (Port × Tag)} (h : s.WaitingFor l) (w : WaitRec) (hw : w ∈ s.waits) :
    (s.dropWait w.port).WaitingFor ((w.port, w.tag) :: l) := by
  obtain ⟨before, after, he⟩ := List.append_of_mem hw
  have hrest : (s.dropWait w.port).waits = before ++ after := by
    rw [dropWait, waits_setWaits, he]
    exact filter_port_ne before after w (he ▸ h.waits)
  refine h.leaves _ ?_ (fun q => by simp [dropWait]) (dropWait_attached s _) (by simp [dropWait]) ?_
  · have hfe : (s.dropWait w.port).frontEnd = s.frontEnd := rfl
    have hc : (s.dropWait w.port).convertingJob = s.convertingJob := rfl
    simp only [waitingRequests_eq, hrest, hfe, hc, he, List.map_append, List.map_cons, ← List.append_assoc]
    exact List.perm_middle
  · rw [dropWait, waits_setWaits]
    exact List.filter_sublist

/-- One service of the waits (R125). -/
theorem WaitingFor.serveWait {s : State} {l : List (Port × Tag)} (h : s.WaitingFor l) (w : WaitRec) (hw : w ∈ s.waits) :
    (s.serveWait w).WaitingFor l := by
  by_cases hd : ∀ i, s.deliverable w.port i = none
  · rwa [serveWait_idle s w hd]
  · obtain ⟨i, n, -, he⟩ := serveWait_delivers s w (not_forall.1 hd)
    rw [he]
    have hnotice : (s.setNotice i (some { n with state := .delivered w.port })).WaitingFor l :=
      h.congr ⟨rfl, rfl, rfl, fun q => by rw [setNotice_port]⟩ fun x _ hx => by
        rwa [attached_iff, setNotice_port, ← attached_iff]
    exact (hnotice.dropped w hw).answered _ _

theorem WaitingFor.serveWaits {s : State} {l : List (Port × Tag)} (h : s.WaitingFor l) : s.serveWaits.WaitingFor l :=
  serveWaits_induction (P := fun u => u.WaitingFor l) (fun _ w hu hw _ => hu.serveWait w hw) s h h.waits

/-- A NOTICE.WAIT joins the list (R124). -/
theorem WaitingFor.waits_append {s : State} {l : List (Port × Tag)} {p : Port} {t : Tag}
    (h : s.WaitingFor ((p, t) :: l)) (due : Nat) (ha : s.attached p = true) (hnone : ∀ w ∈ s.waits, w.port ≠ p) :
    (s.setWaits (s.waits ++ [{ port := p, tag := t, due := due }])).WaitingFor l := by
  refine h.joins ?_ ha (fun q => by rw [setWaits_port]) (fun q => by simp [State.attached]) h.queued ?_
  · have hc : (s.setWaits (s.waits ++ [{ port := p, tag := t, due := due }])).convertingJob = s.convertingJob := rfl
    have hfe : (s.setWaits (s.waits ++ [{ port := p, tag := t, due := due }])).frontEnd = s.frontEnd := rfl
    simp only [waitingRequests_eq, hc, hfe, waits_setWaits, List.map_append, List.map_cons, List.map_nil,
      ← List.append_assoc]
    exact List.perm_append_singleton ..
  · rw [waits_setWaits, List.map_append, List.nodup_append]
    refine ⟨h.waits, by simp, fun a ha b hb => ?_⟩
    obtain ⟨w, hw, rfl⟩ := List.mem_map.1 ha
    simp only [List.map_cons, List.map_nil, List.mem_singleton] at hb
    exact hb ▸ hnone w hw

/-- A direct job joins the queue (R76). -/
theorem WaitingFor.enqueue {s : State} {l : List (Port × Tag)} {p : Port} {t : Tag} (h : s.WaitingFor ((p, t) :: l))
    (target : DirectTarget) (ha : s.attached p = true) :
    (s.enqueue { port := p, tag := t, target := target, disposition := .answer }).WaitingFor l := by
  have hqueue : (s.enqueue { port := p, tag := t, target := target, disposition := .answer }).frontEnd.queue =
      s.frontEnd.queue ++ [{ port := p, tag := t, target := target, disposition := .answer }] := rfl
  refine h.joins ?_ ha (fun q => by simp [State.enqueue]) (fun q => by simp [State.attached, State.enqueue]) ?_ h.waits
  · have hc : (s.enqueue { port := p, tag := t, target := target, disposition := .answer }).convertingJob =
        s.convertingJob := rfl
    have hw : (s.enqueue { port := p, tag := t, target := target, disposition := .answer }).waits = s.waits := rfl
    simp only [waitingRequests_eq, hqueue, hc, hw, List.map_append, List.map_cons, List.map_nil, List.append_assoc,
      List.singleton_append]
    exact List.perm_middle
  · intro j hj
    rw [hqueue, List.mem_append, List.mem_singleton] at hj
    rcases hj with hj | rfl
    · exact h.queued j hj
    · rfl

/-- Where the converter and the queue alone change, what the converter holds and what the queue holds is what waits. -/
theorem waitingRequests_setFrontEnd (s : State) (fe : FrontEnd) : (s.setFrontEnd fe).waitingRequests =
    fe.queue.map (fun j => (j.port, j.tag)) ++ (s.setFrontEnd fe).convertingJob.map (fun j => (j.port, j.tag)) ++
      s.waits.map fun w => (w.port, w.tag) := waitingRequests_eq _

theorem setFrontEnd_attached (s : State) (fe : FrontEnd) (q : Port) : (s.setFrontEnd fe).attached q = s.attached q := by
  simp [State.attached]

/-- The head of the direct queue leaves it to be answered (R80). -/
theorem WaitingFor.popped {s : State} {l : List (Port × Tag)} (h : s.WaitingFor l) (j : DirectJob) (rest : List DirectJob)
    (hq : s.frontEnd.queue = j :: rest) : s.popQueue.WaitingFor ((j.port, j.tag) :: l) := by
  have hqueue : s.popQueue.frontEnd.queue = rest := by simp [popQueue, hq]
  refine h.leaves _ ?_ (fun q => by simp [popQueue]) (setFrontEnd_attached s _) ?_ (by rw [popQueue, setFrontEnd_waits])
  · have hc : s.popQueue.convertingJob = s.convertingJob := rfl
    have hw : s.popQueue.waits = s.waits := rfl
    simp only [waitingRequests_eq, hqueue, hc, hw, hq, List.map_cons, List.cons_append]
    exact List.Perm.refl _
  · rw [hqueue, hq]
    exact List.sublist_cons_self ..

/-- The head of the direct queue enters the converter (R73, R80). -/
theorem WaitingFor.entered {s u : State} {l : List (Port × Tag)} (h : s.WaitingFor l) (j : DirectJob)
    (rest : List DirectJob) (hq : s.frontEnd.queue = j :: rest) (hidle : s.convertingJob = [])
    (hqueue : u.frontEnd.queue = rest) (hconv : u.convertingJob = [j]) (hwaits : u.waits = s.waits)
    (hports : ∀ q, u.port q = s.port q) : u.WaitingFor l := by
  have hperm : u.waitingRequests.Perm s.waitingRequests := by
    simp only [waitingRequests_eq, hqueue, hconv, hwaits, hq, hidle, List.map_cons, List.map_nil, List.append_nil,
      List.append_assoc, List.cons_append]
    exact List.perm_middle
  refine h.perm (hperm.append_right l) (fun q => by rw [hports]) (fun i hi => h.queued i ?_) (fun x hx => ?_)
    (hwaits ▸ h.waits)
  · rw [hq]
    exact List.mem_cons_of_mem _ (hqueue ▸ hi)
  · have := h.attached x (hperm.mem_iff.1 hx)
    rw [attached_iff] at this ⊢
    rwa [hports]

/-- The converter's request leaves it, to be answered or as it is cancelled (R84, R78, R81). -/
theorem WaitingFor.released {s : State} {l : List (Port × Tag)} (h : s.WaitingFor l) (j : DirectJob)
    (hj : s.convertingJob = [j]) (fe : FrontEnd) (hqueue : fe.queue = s.frontEnd.queue)
    (hconv : (s.setFrontEnd fe).convertingJob = []) : (s.setFrontEnd fe).WaitingFor ((j.port, j.tag) :: l) := by
  refine h.leaves _ ?_ (fun q => by simp) (setFrontEnd_attached s fe) (by simp [hqueue]) (by simp)
  rw [waitingRequests_eq s, waitingRequests_setFrontEnd, hj, hconv, hqueue]
  simp only [List.map_cons, List.map_nil, List.append_nil, List.append_assoc, List.singleton_append]
  exact List.perm_middle

/-- A queued request of a port's tag leaves the queue (R84). -/
theorem WaitingFor.unqueued {s : State} {l : List (Port × Tag)} (h : s.WaitingFor l) (p : Port) (t : Tag)
    (hj : ∃ j ∈ s.frontEnd.queue, isRequest p t j = true) :
    (s.setFrontEnd { s.frontEnd with queue := s.frontEnd.queue.filter fun j => !isRequest p t j }).WaitingFor
      ((p, t) :: l) := by
  obtain ⟨j, hj, hreq⟩ := hj
  have hkey (i : DirectJob) (hi : i ∈ s.frontEnd.queue) : isRequest p t i = true ↔ (i.port, i.tag) = (p, t) := by
    simp [isRequest, h.queued i hi]
  obtain ⟨before, after, he⟩ := List.append_of_mem hj
  have hnodup : (s.frontEnd.queue.map fun j => (j.port, j.tag)).Nodup := by
    have := h.distinct
    rw [waitingRequests_eq] at this
    exact this.sublist (by simp)
  have hfilter : (s.frontEnd.queue.filter fun j => !isRequest p t j) = before ++ after := by
    have hne : ∀ i ∈ before ++ after, isRequest p t i = false := by
      intro i hi
      have hmem : i ∈ s.frontEnd.queue := by
        rw [he]
        simp only [List.mem_append, List.mem_cons] at hi ⊢
        tauto
      rw [he, List.map_append, List.map_cons, List.nodup_middle, List.nodup_cons, ← List.map_append] at hnodup
      rw [Bool.eq_false_iff, ne_eq, hkey i hmem, ← (hkey j hj).1 hreq]
      exact fun e => hnodup.1 (e ▸ List.mem_map_of_mem (f := fun j => (j.port, j.tag)) hi)
    rw [he, List.filter_append, List.filter_cons_of_neg (by simp [hreq]),
      List.filter_eq_self.2 fun i hi => by simp [hne i (List.mem_append_left _ hi)],
      List.filter_eq_self.2 fun i hi => by simp [hne i (List.mem_append_right _ hi)]]
  have hc : (s.setFrontEnd { s.frontEnd with
      queue := s.frontEnd.queue.filter fun j => !isRequest p t j }).convertingJob = s.convertingJob := rfl
  refine h.leaves _ ?_ (fun q => by simp) (setFrontEnd_attached s _) List.filter_sublist (by simp)
  rw [waitingRequests_eq s, waitingRequests_setFrontEnd, hc]
  simp only [hfilter]
  simp only [he, List.map_append, List.map_cons, (hkey j hj).1 hreq, List.append_assoc, List.cons_append]
  exact List.perm_middle

/-- A job set to DISCARD is no longer a waiting request (R84, R85). -/
theorem convertingJob_discardFor {s u : State} (who : DirectJob → Bool)
    (h : u.frontEnd.converter = s.frontEnd.converter.discardFor who) :
    u.convertingJob = s.convertingJob.filter fun j => !who j := by
  have hheld (j : HeldJob) : (j.discardFor who).requests = j.requests.filter fun j => !who j := by
    cases j with
    | scan c j => rfl
    | direct j ch g =>
      cases hw : who j <;> cases hd : j.disposition <;> simp [HeldJob.discardFor, HeldJob.requests, hw, hd]
  cases hc : s.frontEnd.converter with
  | idle => rw [convertingJob_of_idle hc, convertingJob_of_idle (by rw [h, hc]; rfl)]; rfl
  | settling j due =>
    rw [convertingJob_of_held (s := s) (by rw [hc]; rfl), ← hheld, convertingJob_of_held]
    rw [h, hc]
    rfl
  | sampling j due =>
    rw [convertingJob_of_held (s := s) (by rw [hc]; rfl), ← hheld, convertingJob_of_held]
    rw [h, hc]
    rfl

/-- The end of a session takes every request of its port (R85, R132, R181). -/
theorem WaitingFor.sessionEnded {s : State} {l : List (Port × Tag)} (h : s.WaitingFor l) (p : Port) :
    (s.sessionEnded p).WaitingFor (l.filter fun x => x.1 != p) := by
  have hconv : (s.sessionEnded p).convertingJob = s.convertingJob.filter fun j => j.port != p := by
    exact convertingJob_discardFor (fun j => j.port == p) (by rw [sessionEnded_frontEnd])
  have hwr : (s.sessionEnded p).waitingRequests = s.waitingRequests.filter fun x => x.1 != p := by
    simp only [waitingRequests_eq, hconv, sessionEnded_frontEnd, sessionEnded_waits, List.filter_append, List.filter_map,
      Function.comp_def]
  have hmem (x : Port × Tag) : x ∈ (s.sessionEnded p).waitingRequests ++ l.filter (fun x => x.1 != p) ↔
      x ∈ s.waitingRequests ++ l ∧ x.1 ≠ p := by
    rw [hwr, ← List.filter_append, List.mem_filter, bne_iff_ne]
  refine ⟨fun j hj => ?_, ?_, fun q t => ?_, fun x hx => ?_, ?_⟩
  · rw [sessionEnded_frontEnd] at hj
    exact h.queued j (List.mem_filter.1 hj).1
  · rw [hwr, ← List.filter_append]
    exact h.distinct.filter _
  · rw [hmem, h.paired, sessionEnded_port]
    by_cases hpq : p = q
    · simp [hpq]
    · simp [hpq, Ne.symm hpq]
  · rw [hwr, List.mem_filter, bne_iff_ne] at hx
    have := h.attached x hx.1
    rw [attached_iff] at this ⊢
    rwa [sessionEnded_port, if_neg (Ne.symm hx.2)]
  · rw [sessionEnded_waits]
    exact h.waits.sublist (List.filter_sublist.map _)

end State
end Sys2Proof.Machine
end

section
/-! SUPPORT. The requests that answer at once and touch no port's traffic: their effect leaves the ports, the waits and the
direct jobs as they were, and makes no notice deliverable (R119, R121, R169). -/

namespace Sys2Proof.Machine
namespace State

/-- The ports, the waits, the direct queue and the converter's request are as they were. -/
structure SameTraffic (s u : State) : Prop where
  portH : u.portH = s.portH
  portL : u.portL = s.portL
  waits : u.waits = s.waits
  queue : u.frontEnd.queue = s.frontEnd.queue
  converting : u.convertingJob = s.convertingJob

theorem SameTraffic.refl (s : State) : SameTraffic s s := ⟨rfl, rfl, rfl, rfl, rfl⟩

theorem SameTraffic.trans {s u v : State} (h : SameTraffic s u) (h' : SameTraffic u v) : SameTraffic s v :=
  ⟨h'.portH.trans h.portH, h'.portL.trans h.portL, h'.waits.trans h.waits, h'.queue.trans h.queue,
    h'.converting.trans h.converting⟩

theorem SameTraffic.port {s u : State} (h : SameTraffic s u) (q : Port) : u.port q = s.port q := by
  cases q
  · exact h.portH
  · exact h.portL

theorem SameTraffic.requests {s u : State} (h : SameTraffic s u) : SameRequests s u :=
  ⟨h.queue, h.converting, h.waits, fun q => by rw [h.port]⟩

theorem convertingJob_congr {s u : State} (h : u.frontEnd = s.frontEnd) : u.convertingJob = s.convertingJob := by
  simp only [convertingJob, h]

theorem SameButSlots.traffic {s u : State} (h : SameButSlots s u) : SameTraffic s u := by
  obtain ⟨-, -, -, -, -, -, h7, -, -, h10, -, -, h13, h14⟩ := h
  exact ⟨h13, h14, h10, by rw [h7], convertingJob_congr h7⟩

theorem SameButPoints.traffic {s u : State} (h : SameButPoints s u) : SameTraffic s u := by
  obtain ⟨-, -, -, -, -, -, h7, h8, h9, h10⟩ := h
  exact ⟨h9, h10, h8, by rw [h7], convertingJob_congr h7⟩

theorem SameButActions.traffic {s u : State} (h : SameButActions s u) : SameTraffic s u := by
  obtain ⟨-, -, -, -, -, -, h7, -, -, h10, h11, h12⟩ := h
  exact ⟨h11, h12, h10, by rw [h7], convertingJob_congr h7⟩

theorem sameTraffic_setCls (s : State) (c : ClassNo) (r : ScanClass) : SameTraffic s (s.setCls c r) :=
  ⟨rfl, rfl, rfl, rfl, rfl⟩

theorem sameTraffic_setSlot (s : State) (i : SlotNo) (r : PointSlot) : SameTraffic s (s.setSlot i r) :=
  ⟨rfl, rfl, rfl, rfl, rfl⟩

/-! ## Notices and routes left alone -/

theorem noNewNotice_of_slots {s u : State} (hn : u.notices = s.notices)
    (hr : ∀ i, (u.slot i).cfg.route = (s.slot i).cfg.route) : NoNewNotice s u :=
  fun i => .inl ⟨by simp only [notice, hn], hr i⟩

theorem noNewNotice_setSlot (s : State) (i : SlotNo) (r : PointSlot) (h : r.cfg.route = (s.slot i).cfg.route) :
    NoNewNotice s (s.setSlot i r) :=
  noNewNotice_of_slots rfl fun j => by
    rw [slot_setSlot]
    split
    next e => exact e ▸ h
    next => rfl

theorem noNewNotice_setCls (s : State) (c : ClassNo) (r : ScanClass) : NoNewNotice s (s.setCls c r) :=
  noNewNotice_of_slots rfl fun _ => rfl

theorem noNewNotice_startTimers (s : State) (es : List ListEntry) : NoNewNotice s (s.startTimers es) := by
  obtain ⟨⟨-, -, -, -, -, -, -, hn, -⟩, hslot⟩ := startTimers_spec es s
  refine noNewNotice_of_slots hn fun i => ?_
  rw [hslot]
  split
  next => split <;> rfl
  next => rfl

theorem noNewNotice_stopTimers (s : State) (es : List ListEntry) : NoNewNotice s (s.stopTimers es) := by
  obtain ⟨⟨-, -, -, -, -, -, -, hn, -⟩, hslot⟩ := stopTimers_spec es s
  refine noNewNotice_of_slots hn fun i => ?_
  rw [hslot]
  split <;> rfl

/-- The traffic is as it was and no notice becomes deliverable. -/
def Quiet (s u : State) : Prop := SameTraffic s u ∧ NoNewNotice s u

theorem Quiet.refl (s : State) : Quiet s s := ⟨.refl s, .refl s⟩

theorem Quiet.trans {s u v : State} (h : Quiet s u) (h' : Quiet u v) : Quiet s v := ⟨h.1.trans h'.1, h.2.trans h'.2⟩

theorem quiet_setCls (s : State) (c : ClassNo) (r : ScanClass) : Quiet s (s.setCls c r) :=
  ⟨sameTraffic_setCls s c r, noNewNotice_setCls s c r⟩

theorem quiet_setSlot (s : State) (i : SlotNo) (r : PointSlot) (h : r.cfg.route = (s.slot i).cfg.route) :
    Quiet s (s.setSlot i r) := ⟨sameTraffic_setSlot s i r, noNewNotice_setSlot s i r h⟩

theorem quiet_setNotice (s : State) (i : SlotNo) (n : Option Notice) (h : ∀ m, n = some m → m.state ≠ .pending) :
    Quiet s (s.setNotice i n) := ⟨⟨rfl, rfl, rfl, rfl, rfl⟩, noNewNotice_setNotice s i n h⟩

theorem quiet_setAction (s : State) (a : ActionNo) (r : ActionRec) : Quiet s (s.setAction a r) :=
  ⟨⟨rfl, rfl, rfl, rfl, rfl⟩, noNewNotice_of_slots rfl fun _ => rfl⟩

theorem quiet_setOutput (s : State) (o : OutputNo) (r : OutputChannel) : Quiet s (s.setOutput o r) :=
  ⟨⟨rfl, rfl, rfl, rfl, rfl⟩, noNewNotice_of_slots rfl fun _ => rfl⟩

theorem quiet_dropSaved (s : State) (who : LastWriter → Bool) : Quiet s (s.dropSaved who) :=
  ⟨⟨rfl, rfl, rfl, rfl, rfl⟩, noNewNotice_of_slots rfl fun _ => rfl⟩

theorem quiet_startTimers (s : State) (es : List ListEntry) : Quiet s (s.startTimers es) :=
  ⟨(startTimers_spec es s).1.traffic, noNewNotice_startTimers s es⟩

theorem quiet_reachStopped (s : State) (c : ClassNo) : Quiet s (s.reachStopped c) :=
  Quiet.trans ⟨(stopTimers_spec _ s).1.traffic, noNewNotice_stopTimers s _⟩ (quiet_setCls ..)

theorem quiet_trigger (s : State) (c : ClassNo) : Quiet s (s.trigger c).1 := by
  obtain ⟨r, h⟩ := trigger_frame s c
  exact h ▸ quiet_setCls s c r

theorem quiet_continuePass (s : State) (c : ClassNo) : Quiet s (s.continuePass c) := by
  obtain ⟨r, h, -⟩ := continuePass_frame s c
  exact h ▸ quiet_setCls s c r

theorem quiet_finishJob (s : State) (c : ClassNo) : Quiet s (s.finishJob c) := by
  rw [finishJob_eq]
  split
  next => exact (quiet_setCls ..).trans (quiet_reachStopped ..)
  next => exact (quiet_setCls ..).trans (quiet_continuePass ..)

theorem quiet_startTimer (s : State) (i : SlotNo) : Quiet s (s.startTimer i) := by
  rw [startTimer_eq]
  exact quiet_setSlot s i _ rfl

theorem quiet_stopClass (s : State) (c : ClassNo) : Quiet s (s.stopClass c) := by
  unfold stopClass
  split
  next => exact .refl s
  next => exact .refl s
  next => exact quiet_reachStopped s c
  next =>
    split
    next => exact quiet_reachStopped s c
    next =>
      split
      next => exact quiet_reachStopped s c
      next => exact quiet_setCls ..

theorem quiet_fetch (s u : State) (p : Port) (data : List Byte) (h : s.fetch p = some (u, data)) : Quiet s u := by
  obtain ⟨⟨i, n⟩, -, he⟩ := Option.map_eq_some_iff.1 h
  cases he
  exact quiet_setNotice s i _ fun m hm => by cases hm; simp

theorem quiet_retire (s : State) (i : SlotNo) : Quiet s (s.retire i) := by
  have hu := retire_retired s i
  refine ⟨⟨hu.ports .H, hu.ports .L, hu.waits, by rw [hu.frontEnd], convertingJob_congr hu.frontEnd⟩, fun j => ?_⟩
  rw [hu.notices, hu.slots]
  by_cases hij : i = j
  · exact .inr fun n hn => by simp [hij] at hn
  · simp [hij]

/-! ## The requests that answer at once -/

/-- The request is answered at once, the traffic is as it was, and, where FREE slots are clear, no notice becomes
deliverable. -/
structure Answers (s : State) (r : State × Reply) : Prop where
  done : ∃ code data, r.2 = .done code data
  traffic : SameTraffic s r.1
  notices : FreeSlotLaw s → NoNewNotice s r.1

theorem Quiet.answers {s u : State} (h : Quiet s u) (code : ResultCode) (data : List Byte) :
    Answers s (u, .done code data) := ⟨⟨code, data, rfl⟩, h.1, fun _ => h.2⟩

theorem answers_reply (s : State) (code : ResultCode) (data : List Byte) : Answers s (s.reply code data) :=
  (Quiet.refl s).answers code data

theorem answers_withRef (s : State) (slot gen : Byte) (go : SlotNo → State × Reply) (h : ∀ i, Answers s (go i)) :
    Answers s (s.withRef slot gen go) := by
  unfold withRef
  split
  next => exact answers_reply ..
  next =>
    split
    next => exact h _
    next => exact answers_reply ..

theorem answers_ownDefine (s : State) (b : ConfigBlock) : Answers s (ownDefine b s) := by
  unfold ownDefine
  split
  next => exact answers_reply ..
  next =>
    split
    next => exact answers_reply ..
    next =>
      split
      next => exact answers_reply ..
      next =>
        split
        next => exact answers_reply ..
        next =>
          split
          next => exact answers_reply ..
          next i hi =>
            refine ⟨⟨_, _, rfl⟩, ⟨rfl, rfl, rfl, rfl, rfl⟩, fun hfree j => ?_⟩
            by_cases hij : i = j
            · refine .inr fun n hn => ?_
              subst hij
              rw [setKeyMap_notice, setSlot_notice, (hfree i (lowestFree_free s i hi)).2] at hn
              cases hn
            · exact .inl ⟨rfl, by rw [setKeyMap_slot, slot_setSlot_ne _ _ _ _ hij]⟩

theorem answers_ownFind (s : State) (key : Word32) : Answers s (ownFind key s) := by
  unfold ownFind
  split
  next => exact answers_reply ..
  next => split <;> exact answers_reply ..

theorem answers_ownSummary (s : State) (start : Byte) : Answers s (ownSummary start s) := by
  unfold ownSummary
  split <;> exact answers_reply ..

theorem answers_ownRetire (s : State) (p : Port) (slot gen : Byte) : Answers s (ownRetire p slot gen s) :=
  answers_withRef s slot gen _ fun i => by
    split
    next => exact answers_reply ..
    next => exact (quiet_retire s i).answers ..

theorem answers_ownOpen (s : State) (p : Port) (slot gen : Byte) : Answers s (ownOpen p slot gen s) :=
  answers_withRef s slot gen _ fun i => by
    split
    next => exact (quiet_setSlot s i _ (by rfl)).answers ..
    next =>
      split
      next => exact (quiet_setSlot s i _ (by rfl)).answers ..
      next => exact answers_reply ..

theorem answers_ownEditSet (s : State) (p : Port) (slot gen field presence : Byte) (area : BitVec 64) :
    Answers s (ownEditSet p slot gen field presence area s) := by
  unfold ownEditSet
  split
  next => exact answers_reply ..
  next =>
    refine answers_withRef s slot gen _ fun i => ?_
    split
    next => exact answers_reply ..
    next => exact (quiet_setSlot s i _ (by rfl)).answers ..

theorem answers_ownDrop (s : State) (p : Port) (slot gen : Byte) : Answers s (ownDrop p slot gen s) :=
  answers_withRef s slot gen _ fun i => by
    split
    next => exact answers_reply ..
    next => exact (quiet_setSlot s i _ (by rfl)).answers ..

theorem answers_ownConfig (s : State) (cls source : Byte) (period : Word16) : Answers s (ownConfig cls source period s) := by
  unfold ownConfig
  split
  next =>
    split
    next => exact answers_reply ..
    next =>
      split
      next => exact answers_reply ..
      next => exact (quiet_setCls ..).answers ..
  next => exact answers_reply ..

theorem answers_ownStart (s : State) (cls : Byte) : Answers s (ownStart cls s) := by
  unfold ownStart
  split
  next => exact answers_reply ..
  next =>
    split
    next => exact answers_reply ..
    next => exact ((quiet_setCls ..).trans (quiet_startTimers ..)).answers ..

theorem answers_ownStop (s : State) (cls : Byte) : Answers s (ownStop cls s) := by
  unfold ownStop
  split
  next => exact answers_reply ..
  next c _ => exact (quiet_stopClass s c).answers ..

theorem answers_ownTrigger (s : State) (cls : Byte) : Answers s (ownTrigger cls s) := by
  unfold ownTrigger
  split
  next => exact answers_reply ..
  next c _ =>
    split
    next => exact answers_reply ..
    next u o h =>
      have := quiet_trigger s c
      rw [h] at this
      exact this.answers ..

theorem answers_ownClassStatus (s : State) (cls clear : Byte) : Answers s (ownClassStatus cls clear s) := by
  unfold ownClassStatus
  split
  next => exact answers_reply ..
  next => exact (quiet_setCls ..).answers ..
  next => exact answers_reply ..

theorem answers_ownInsert (s : State) (cls slot gen position : Byte) : Answers s (ownInsert cls slot gen position s) := by
  unfold ownInsert
  split
  next => exact answers_reply ..
  next =>
    split
    next => exact answers_reply ..
    next =>
      refine answers_withRef s slot gen _ fun i => ?_
      split
      next => exact answers_reply ..
      next =>
        split
        next => exact answers_reply ..
        next =>
          split
          next => exact answers_reply ..
          next =>
            have hinsert (c : ClassNo) (k : Nat) (e : ListEntry) : Quiet s (s.insertEntry c k e) := quiet_setCls ..
            simp only
            split
            next => exact ((hinsert ..).trans (quiet_startTimer ..)).answers ..
            next => exact (hinsert ..).answers ..

theorem quiet_removeEntry (s : State) (c : ClassNo) (k : Nat) : Quiet s (s.removeEntry c k) := by
  obtain ⟨r, h, -⟩ := removeEntry_frame s c k
  exact h ▸ quiet_setCls s c r

theorem answers_ownRemove (s : State) (cls slot gen : Byte) : Answers s (ownRemove cls slot gen s) := by
  unfold ownRemove
  split
  next => exact answers_reply ..
  next =>
    refine answers_withRef s slot gen _ fun i => ?_
    split
    next => exact answers_reply ..
    next => exact ((quiet_removeEntry ..).trans (quiet_setSlot _ i _ (by rfl))).answers ..

theorem answers_ownListRead (s : State) (cls : Byte) : Answers s (ownListRead cls s) := by
  unfold ownListRead
  split <;> exact answers_reply ..

theorem answers_ownFetch (s : State) (p : Port) : Answers s (ownFetch p s) := by
  unfold ownFetch
  split
  next => exact answers_reply ..
  next u data h => exact (quiet_fetch s u p data h).answers ..

theorem answers_ownCreate (s : State) (triggers output : Byte) (drive : Word16) (budget flags : Byte) :
    Answers s (ownCreate triggers output drive budget flags s) := by
  unfold ownCreate
  split
  next =>
    split
    next => exact answers_reply ..
    next => exact (quiet_setAction ..).answers ..
  next => exact answers_reply ..

theorem answers_ownLink (s : State) (p : Port) (action slot gen : Byte) : Answers s (ownLink p action slot gen s) := by
  unfold ownLink
  split
  next => exact answers_reply ..
  next =>
    refine answers_withRef s slot gen _ fun i => ?_
    split
    next => exact answers_reply ..
    next =>
      split
      next => exact answers_reply ..
      next =>
        split
        next => exact answers_reply ..
        next => exact ((quiet_setSlot s i _ (by rfl)).trans (quiet_setAction ..)).answers ..

theorem answers_ownUnlink (s : State) (p : Port) (slot gen : Byte) : Answers s (ownUnlink p slot gen s) :=
  answers_withRef s slot gen _ fun i => by
    split
    next => exact answers_reply ..
    next =>
      split
      next => exact answers_reply ..
      next =>
        exact (((quiet_setSlot s i _ (by rfl)).trans (quiet_setAction ..)).trans (quiet_dropSaved ..)).answers ..

theorem answers_ownRearm (s : State) (action budget : Byte) : Answers s (ownRearm action budget s) := by
  unfold ownRearm
  split
  next =>
    split
    next => exact answers_reply ..
    next => exact ((quiet_setAction ..).trans (quiet_dropSaved ..)).answers ..
  next => exact answers_reply ..

theorem answers_ownFree (s : State) (action : Byte) : Answers s (ownFree action s) := by
  unfold ownFree
  split
  next => exact answers_reply ..
  next =>
    split
    next => exact answers_reply ..
    next =>
      split
      next => exact answers_reply ..
      next => exact ((quiet_dropSaved ..).trans (quiet_setAction ..)).answers ..

theorem answers_ownActionRead (s : State) (action : Byte) : Answers s (ownActionRead action s) := by
  unfold ownActionRead
  split <;> exact answers_reply ..

theorem answers_ownWrite (s : State) (p : Port) (channel : Byte) (value : Word16) :
    Answers s (ownWrite p channel value s) := by
  unfold ownWrite
  split
  next =>
    split
    next => exact answers_reply ..
    next => exact (quiet_setOutput ..).answers ..
  next => exact answers_reply ..

theorem answers_ownPin (s : State) (p : Port) (channel : Byte) : Answers s (ownPin p channel s) := by
  unfold ownPin
  split
  next => exact answers_reply ..
  next =>
    split
    next => exact answers_reply ..
    next => exact (quiet_setOutput ..).answers ..

theorem answers_ownUnpin (s : State) (p : Port) (channel : Byte) : Answers s (ownUnpin p channel s) := by
  unfold ownUnpin
  split
  next => exact answers_reply ..
  next =>
    split
    next => exact (quiet_setOutput ..).answers ..
    next => exact answers_reply ..

theorem answers_ownFallback (s : State) (p : Port) (channel presence : Byte) (value : Word16) :
    Answers s (ownFallback p channel presence value s) := by
  unfold ownFallback
  split
  next =>
    split
    next => exact answers_reply ..
    next => exact (quiet_setOutput ..).answers ..
  next => exact answers_reply ..

theorem answers_ownOutputRead (s : State) (channel : Byte) : Answers s (ownOutputRead channel s) := by
  unfold ownOutputRead
  split <;> exact answers_reply ..

end State
end Sys2Proof.Machine
end

section
/-! SUPPORT. What each request and each event of the part's own does to the ports' traffic and to the waiting requests (R76,
R121, R163, R169 to R181). -/

namespace Sys2Proof.Machine

/-- The request that is still to be answered once its owner has replied (R169). -/
def Reply.unanswered (x : Port × Tag) : Reply → List (Port × Tag)
  | .done _ _ => [x]
  | .waits => []

namespace State

theorem portLaw_iff (s : State) : PortLaw s ↔ ∀ q, (s.port q).Legal :=
  ⟨fun h q => by cases q; exacts [h.1, h.2], fun h => ⟨h .H, h .L⟩⟩

theorem servedLaw_iff (s : State) : ServedLaw s ↔ ∀ w ∈ s.waits, ∀ i, s.deliverable w.port i = none := by
  simp only [ServedLaw, anyDeliverable_eq_false]

/-- What keeps the law of the served waits without serving them. -/
theorem servedLaw_of_same {s u : State} (h : ServedLaw s) (hwaits : ∀ w ∈ u.waits, w ∈ s.waits) (hnew : NoNewNotice s u)
    (hports : ∀ w ∈ u.waits, (u.port w.port).threshold = (s.port w.port).threshold ∧
      (u.port w.port).session = (s.port w.port).session) : ServedLaw u := by
  rw [servedLaw_iff] at h ⊢
  exact fun w hw i => hnew.deliverable (hports w hw).1 (hports w hw).2 (h w (hwaits w hw) i)

theorem servedLaw_serveWaits {s : State} {l : List (Port × Tag)} (h : s.WaitingFor l) : ServedLaw s.serveWaits :=
  (servedLaw_iff _).2 (serveWaits_served s h.waits)

/-- No PRSTn line moves (R182). -/
def SameLines (s u : State) : Prop := ∀ q, (u.port q).prstAsserted = (s.port q).prstAsserted

theorem SameLines.trans {s u v : State} (h : SameLines s u) (h' : SameLines u v) : SameLines s v := fun q =>
  (h' q).trans (h q)

theorem sameLines_of_ports {s u : State} (h : ∀ q, u.port q = s.port q) : SameLines s u := fun q => by rw [h]

theorem sameLines_setPort (s : State) (p : Port) (r : PortRec) (h : r.prstAsserted = (s.port p).prstAsserted) :
    SameLines s (s.setPort p r) := by
  intro q
  rw [port_setPort]
  split
  next e => exact e ▸ h
  next => rfl

theorem sameLines_answerTag (s : State) (p : Port) (t : Tag) (code : ResultCode) (data : List Byte) :
    SameLines s (s.answerTag p t code data) := by
  unfold answerTag
  split
  next => exact fun _ => rfl
  next => exact sameLines_setPort s p _ rfl

theorem sameLines_serveWaits (s : State) : SameLines s s.serveWaits :=
  serveWaits_keeps (P := SameLines s) (fun u w hu q => by
    rcases serveWait_port u w q with e | ⟨data, v, hv, e⟩
    · rw [e, hu]
    · rw [e, sameLines_answerTag, hv, hu]) s fun _ => rfl

theorem sameLines_endSession (s : State) (p : Port) : SameLines s (s.endSession p) := by
  rw [endSession_eq]
  refine SameLines.trans (fun q => ?_) (sameLines_serveWaits _)
  rw [sessionEnded_port]
  split
  next e => rw [e]
  next => rfl

/-- A request's effect on the traffic: every record stays legal, the other port's is untouched where it has no tag open,
the waiting requests stay paired with the WAITING tags, nothing stays deliverable to a port that waits, and no PRSTn line
moves. -/
structure Handles (p : Port) (t : Tag) (s : State) (r : State × Reply) : Prop where
  legal : ∀ q, (s.port q).Legal → (r.1.port q).Legal
  untouched : ∀ q, q ≠ p → (s.port q).openTags = [] → r.1.port q = s.port q
  waiting : s.WaitingFor [(p, t)] → r.1.WaitingFor (r.2.unanswered (p, t))
  served : FreeSlotLaw s → s.WaitingFor [(p, t)] → ServedLaw s → ServedLaw r.1
  lines : SameLines s r.1

theorem waitingFor_of_sameTraffic {s u : State} {l : List (Port × Tag)} (h : SameTraffic s u) (hs : s.WaitingFor l) :
    u.WaitingFor l :=
  hs.congr h.requests fun x _ hx => by
    rw [attached_iff] at hx ⊢
    rwa [h.port]

theorem Answers.handles {s : State} {r : State × Reply} (h : Answers s r) (p : Port) (t : Tag) : Handles p t s r where
  legal q hq := by rwa [h.traffic.port]
  untouched q _ _ := h.traffic.port q
  waiting hw := by
    obtain ⟨code, data, e⟩ := h.done
    rw [e]
    exact waitingFor_of_sameTraffic h.traffic hw
  served hfree _ hs := servedLaw_of_same hs (fun w hw => h.traffic.waits ▸ hw) (h.notices hfree) fun w _ => by
    rw [h.traffic.port]
    exact ⟨rfl, rfl⟩
  lines := sameLines_of_ports h.traffic.port

/-- A write of the port's own settings, answered at once. -/
theorem legal_setPort {s : State} {p q : Port} {r : PortRec} (h : (s.port p).Legal → r.Legal) (hq : (s.port q).Legal) :
    ((s.setPort p r).port q).Legal := by
  rw [port_setPort]
  split
  next e => exact h (e ▸ hq)
  next => exact hq

theorem legal_settings {r r' : PortRec} (h : r.Legal) (htags : r'.openTags = r.openTags) (hqueue : r'.queue = r.queue)
    (hrefusals : r'.refusals = r.refusals) (hcollect : r'.collecting = r.collecting) (herrors : r'.frameErrors ≤ 255)
    (hdropped : r'.dropped ≤ 255) (htimeout : 1 ≤ r'.timeoutSteps ∧ r'.timeoutSteps ≤ 255) : r'.Legal := by
  obtain ⟨hsound, hlegal⟩ := (PortRec.legal_iff r).1 h
  exact (PortRec.legal_iff r').2 ⟨hsound.settings htags hqueue hrefusals herrors hdropped htimeout,
    hlegal.congr hcollect (fun a => by rw [hrefusals]; exact id) fun a => by rw [hqueue]; exact id⟩

theorem legal_ranges {r : PortRec} (h : r.Legal) :
    r.frameErrors ≤ 255 ∧ r.dropped ≤ 255 ∧ 1 ≤ r.timeoutSteps ∧ r.timeoutSteps ≤ 255 := by
  obtain ⟨hsound, -⟩ := (PortRec.legal_iff r).1 h
  exact ⟨hsound.errors, hsound.dropped, hsound.timeout⟩

theorem timeoutOf_range (b : Byte) : 1 ≤ timeoutOf b ∧ timeoutOf b ≤ 255 := by
  rw [timeoutOf_eq]
  have hlt := b.isLt
  split
  next => decide
  next hb =>
    refine ⟨Nat.pos_of_ne_zero fun h => hb (BitVec.eq_of_toNat_eq (by simpa using h)), by omega⟩

/-! ## The PORT requests -/

theorem handles_ownAttach (s : State) (p : Port) (t : Tag) (timeout threshold : Byte) :
    Handles p t s (ownAttach p timeout threshold s) := by
  unfold ownAttach
  split
  next => exact (answers_reply ..).handles p t
  next th _ =>
    split
    next => exact (answers_reply ..).handles p t
    next hdetached =>
      refine ⟨fun q hq => legal_setPort (fun h => ?_) hq, fun q hq _ => port_setPort_ne _ _ _ _ (Ne.symm hq), fun hw => ?_,
        fun _ hw hs => ?_, sameLines_setPort s p _ rfl⟩
      · exact legal_settings h rfl rfl rfl rfl (legal_ranges h).1 (legal_ranges h).2.1 (timeoutOf_range _)
      · refine hw.congr (sameRequests_setPort s p _ rfl) fun x _ hx => ?_
        rw [attached_iff] at hx ⊢
        rw [port_setPort]
        split
        next => rfl
        next => exact hx
      · have hother (w : WaitRec) (hm : w ∈ s.waits) : p ≠ w.port := by
          rintro rfl
          refine hdetached (hw.attached (w.port, w.tag) ?_)
          exact List.mem_append_right _ (List.mem_map.2 ⟨w, hm, rfl⟩)
        refine servedLaw_of_same hs (fun w hm => by simpa using hm) (noNewNotice_of_slots (by cases p <;> rfl)
          fun i => by rw [setPort_slot]) fun w hm => ?_
        rw [port_setPort_ne _ _ _ _ (hother w (by simpa using hm))]
        exact ⟨rfl, rfl⟩

theorem handles_ownSet (s : State) (p : Port) (t : Tag) (timeout threshold : Byte) :
    Handles p t s (ownSet p timeout threshold s) := by
  unfold ownSet
  split
  next => exact (answers_reply ..).handles p t
  next th _ =>
    have hwaiting (hw : s.WaitingFor [(p, t)]) :
        (s.setPort p { s.port p with timeoutSteps := timeoutOf timeout, threshold := th }).WaitingFor [(p, t)] :=
      hw.congr (sameRequests_setPort s p _ rfl) fun x _ hx => by rwa [attached_setPort s p _ _ (by rfl)]
    refine ⟨fun q hq => legal_serveWaits (legal_setPort (fun h => ?_) hq), fun q hq htags => ?_,
      fun hw => (hwaiting hw).serveWaits, fun _ hw _ => servedLaw_serveWaits (hwaiting hw),
      (sameLines_setPort s p { s.port p with timeoutSteps := timeoutOf timeout, threshold := th } rfl).trans
        (sameLines_serveWaits _)⟩
    · exact legal_settings h rfl rfl rfl rfl (legal_ranges h).1 (legal_ranges h).2.1 (timeoutOf_range _)
    · have hport := port_setPort_ne s p q { s.port p with timeoutSteps := timeoutOf timeout, threshold := th } (Ne.symm hq)
      rw [serveWaits_port_of_no_tags _ _ (by rw [hport, htags]), hport]

theorem handles_ownStatus (s : State) (p : Port) (t : Tag) (clear : Byte) : Handles p t s (ownStatus p clear s) := by
  unfold ownStatus
  split
  next => exact (answers_reply ..).handles p t
  next => exact (answers_reply ..).handles p t
  next =>
    refine ⟨fun q hq => legal_setPort (fun h => ?_) hq, fun q hq _ => port_setPort_ne _ _ _ _ (Ne.symm hq), fun hw => ?_,
      fun _ _ hs => ?_, sameLines_setPort s p _ rfl⟩
    · exact legal_settings h rfl rfl rfl rfl (Nat.zero_le _) (Nat.zero_le _) (legal_ranges h).2.2
    · exact hw.congr (sameRequests_setPort s p _ rfl) fun x _ hx => by rwa [attached_setPort s p _ _ (by rfl)]
    · refine servedLaw_of_same hs (fun w hm => by simpa using hm) (noNewNotice_of_slots (by cases p <;> rfl)
        fun i => by rw [setPort_slot]) fun w _ => ?_
      rw [port_setPort]
      split
      next e => exact e ▸ ⟨rfl, rfl⟩
      next => exact ⟨rfl, rfl⟩

/-- What a cancel does to the request it names: it leaves its list, and nothing else of the traffic changes (R84, R128). -/
theorem cancelEffect_spec (s u : State) (p : Port) (t : Tag) (h : s.cancelEffect p t = some u) :
    (∀ q, u.port q = s.port q) ∧ (∀ w ∈ u.waits, w ∈ s.waits) ∧ NoNewNotice s u ∧
      ∀ l, s.WaitingFor l → u.WaitingFor ((p, t) :: l) := by
  have hfe (fe : FrontEnd) : NoNewNotice s (s.setFrontEnd fe) := noNewNotice_of_slots rfl fun _ => rfl
  unfold cancelEffect at h
  split at h
  next hqueued =>
    cases h
    refine ⟨fun q => setFrontEnd_port .., fun w hw => by simpa using hw, hfe _, fun l hw => hw.unqueued p t ?_⟩
    simpa using hqueued
  next =>
    split at h
    next hconv =>
      cases h
      refine ⟨fun q => setFrontEnd_port .., fun w hw => by simpa using hw, hfe _, fun l hw => ?_⟩
      obtain ⟨j, hreq, hj⟩ : ∃ j, isRequest p t j = true ∧ s.convertingJob = [j] := by
        unfold convertingRequest at hconv
        have hone (j : DirectJob) (ch : ChannelNo) (g : Gain) (hreq : isRequest p t j = true)
            (hheld : s.frontEnd.converter.held = some (.direct j ch g)) : s.convertingJob = [j] := by
          rw [convertingJob_of_held hheld, HeldJob.requests, if_pos (by simp [isRequest] at hreq; exact hreq.2)]
        split at hconv
        next => cases hconv
        next => cases hconv
        next => cases hconv
        next j ch g due hc => exact ⟨j, hconv, hone j ch g hconv (by rw [hc]; rfl)⟩
        next j ch g due hc => exact ⟨j, hconv, hone j ch g hconv (by rw [hc]; rfl)⟩
      have hkey : (j.port, j.tag) = (p, t) := by
        simp only [isRequest, Bool.and_eq_true, beq_iff_eq] at hreq
        rw [hreq.1.1, hreq.1.2]
      rw [← hkey]
      refine hw.released j hj _ rfl ?_
      rw [convertingJob_discardFor (s := s) (isRequest p t) rfl, hj]
      simp [hreq]
    next =>
      split at h
      next hwait =>
        cases h
        refine ⟨fun q => setWaits_port .., fun w hw => ?_, noNewNotice_of_slots rfl fun _ => rfl, fun l hw => ?_⟩
        · exact List.mem_of_mem_filter hw
        · obtain ⟨w, hm, hport, htag⟩ : ∃ w ∈ s.waits, w.port = p ∧ w.tag = t := by simpa using hwait
          have := hw.dropped w hm
          rwa [hport, htag] at this
      next => cases h

theorem handles_ownCancel (s : State) (p : Port) (t : Tag) (target : Byte) : Handles p t s (ownCancel p t target s) := by
  unfold ownCancel
  split
  next => exact (answers_reply ..).handles p t
  next t' _ =>
    split
    next => exact (answers_reply ..).handles p t
    next =>
      split
      next => exact (answers_reply ..).handles p t
      next u hu =>
        obtain ⟨hports, hwaits, hnew, hwaiting⟩ := cancelEffect_spec s u p t' hu
        obtain ⟨hanew, hawaits, -, haports⟩ := answerTag_frame u p t' .cancelled []
        refine ⟨fun q hq => legal_answerTag (by rwa [hports]) .., fun q _ htags => ?_,
          fun hw => (hwaiting _ hw).answered .., fun _ _ hs => ?_,
          (sameLines_of_ports hports).trans (sameLines_answerTag u p t' .cancelled [])⟩
        · rw [answerTag_port_of_no_tags _ _ _ _ _ _ (by rw [hports, htags]), hports]
        · refine servedLaw_of_same hs (fun w hw => hwaits w (hawaits ▸ hw)) (hnew.trans hanew) fun w _ => ?_
          rw [(haports _).1, (haports _).2, hports]
          exact ⟨rfl, rfl⟩

/-- The end of a session leaves the other port's record, and its own without traffic (R181). -/
theorem endSession_port_self (s : State) (p : Port) : (s.endSession p).port p =
    { s.port p with session := .detached, openTags := [], queue := [], refusals := [] } := by
  rw [endSession_eq, serveWaits_port_of_no_tags _ _ (by rw [sessionEnded_port, if_pos rfl]), sessionEnded_port, if_pos rfl]

theorem legal_endSession {s : State} {p q : Port} (h : (s.port q).Legal) (hcollect : (s.port p).collecting = none) :
    ((s.endSession p).port q).Legal := by
  rw [endSession_eq]
  refine legal_serveWaits ?_
  rw [sessionEnded_port]
  split
  next e =>
    subst e
    exact (PortRec.legal_iff _).2 ⟨((PortRec.legal_iff _).1 h).1.cleared, PortRec.collectLegal_of_none hcollect⟩
  next => exact h

theorem endSession_port_of_no_tags (s : State) (p q : Port) (hq : q ≠ p) (h : (s.port q).openTags = []) :
    (s.endSession p).port q = s.port q := by
  have hport : (s.sessionEnded p).port q = s.port q := by rw [sessionEnded_port, if_neg (Ne.symm hq)]
  rw [endSession_eq, serveWaits_port_of_no_tags _ _ (by rw [hport, h]), hport]

theorem WaitingFor.endSession {s : State} {l : List (Port × Tag)} (h : s.WaitingFor l) (p : Port) :
    (s.endSession p).WaitingFor (l.filter fun x => x.1 != p) := by
  rw [endSession_eq]
  exact (h.sessionEnded p).serveWaits

/-- The end of a session leaves nothing deliverable to a port that waits, and its own port waits no more. -/
theorem servedLaw_endSession {s : State} {l : List (Port × Tag)} (h : s.WaitingFor l) (p : Port) :
    ServedLaw (s.endSession p) := servedLaw_serveWaits (h.sessionEnded p)

theorem servedLaw_openTag {s : State} (h : ServedLaw s) (p : Port) (t : Tag) (k : Byte) : ServedLaw (s.openTag p t k) :=
  servedLaw_of_same h (fun w hw => by simpa using hw) (noNewNotice_of_slots (by cases p <;> rfl) fun i => by
    rw [openTag_slot]) fun w _ => ⟨openTag_threshold .., openTag_session ..⟩

theorem handles_ownDetach (s : State) (p : Port) (t : Tag) (hcollect : (s.port p).collecting = none) :
    Handles p t s (ownDetach p t s) := by
  have htags : ((s.endSession p).port p).openTags = [] := by rw [endSession_port_self]
  refine ⟨fun q hq => ?_, fun q hq h => ?_, fun hw => ?_, fun _ hw _ => ?_,
    (sameLines_endSession s p).trans (sameLines_setPort _ p _ rfl)⟩
  · have hlegal := legal_endSession (q := q) hq hcollect
    by_cases hpq : p = q
    · subst hpq
      exact legal_openTag hlegal t _ (by simp [htags]) (by simp [htags])
    · change (((s.endSession p).openTag p t _).port q).Legal
      rwa [openTag, port_setPort_ne _ _ _ _ hpq]
  · change ((s.endSession p).openTag p t _).port q = _
    rw [openTag, port_setPort_ne _ _ _ _ (Ne.symm hq), endSession_port_of_no_tags s p q hq h]
  · have := hw.endSession p
    rw [List.filter_cons_of_neg (by simp), List.filter_nil] at this
    exact this.opened p t _ (by simp [htags])
  · exact servedLaw_openTag (servedLaw_endSession hw p) p t _

/-! ## The requests that wait, and those that serve the waits -/

theorem handles_enqueue (s : State) (p : Port) (t : Tag) (target : DirectTarget) (ha : s.attached p = true) :
    Handles p t s (s.enqueue { port := p, tag := t, target := target, disposition := .answer }, .waits) where
  legal q hq := by simpa [enqueue] using hq
  untouched q _ _ := by simp [enqueue]
  waiting hw := hw.enqueue target ha
  served _ _ hs := servedLaw_of_same hs (fun _ => id) (noNewNotice_of_slots rfl fun _ => rfl) fun w _ => by
    simp [enqueue]
  lines := sameLines_of_ports fun q => by simp [enqueue]

theorem handles_ownConvert (s : State) (p : Port) (t : Tag) (ch g : Byte) (ha : s.attached p = true) :
    Handles p t s (ownConvert p t ch g s) := by
  unfold ownConvert
  split
  next => exact handles_enqueue s p t _ ha
  next => exact (answers_reply ..).handles p t

theorem handles_withRef (s : State) (p : Port) (t : Tag) (slot gen : Byte) (go : SlotNo → State × Reply)
    (h : ∀ i, s.names i gen = true → Handles p t s (go i)) : Handles p t s (s.withRef slot gen go) := by
  unfold withRef
  split
  next => exact (answers_reply ..).handles p t
  next =>
    split
    next hi => exact h _ hi
    next => exact (answers_reply ..).handles p t

/-- An effect that leaves the traffic alone, with the waits then served. -/
theorem handles_serveWaits {s u : State} (h : SameTraffic s u) (p : Port) (t : Tag) (code : ResultCode) (data : List Byte) :
    Handles p t s (u.serveWaits, .done code data) where
  legal q hq := legal_serveWaits (by rwa [h.port])
  untouched q _ htags := by rw [serveWaits_port_of_no_tags _ _ (by rw [h.port, htags]), h.port]
  waiting hw := (waitingFor_of_sameTraffic h hw).serveWaits
  served _ hw _ := servedLaw_serveWaits (waitingFor_of_sameTraffic h hw)
  lines := (sameLines_of_ports h.port).trans (sameLines_serveWaits u)

theorem commit_points (s : State) (i : SlotNo) (staged : PointConfig) : SameButPoints s (s.commit i staged) := by
  rw [commit_eq]
  split
  next => exact (changeCondition_points (s.setSlot i (s.committedSlot i staged)) i .normal).1
  next => exact SameButPoints.refl s

theorem handles_ownCommit (s : State) (p : Port) (t : Tag) (slot gen : Byte) : Handles p t s (ownCommit p slot gen s) :=
  handles_withRef s p t slot gen _ fun i _ => by
    split
    next => exact (answers_reply ..).handles p t
    next c _ =>
      split
      next => exact (answers_reply ..).handles p t
      next => exact handles_serveWaits (commit_points s i c.staged).traffic p t _ _

theorem handles_ownWait (s : State) (p : Port) (t : Tag) (timeout : Word16) (ha : s.attached p = true) :
    Handles p t s (ownWait p t timeout s) := by
  unfold ownWait
  split
  next => exact (answers_reply ..).handles p t
  next =>
    split
    next => exact (answers_reply ..).handles p t
    next hnone =>
      split
      next u data h => exact ((quiet_fetch s u p data h).answers ..).handles p t
      next hfetch =>
        refine ⟨fun q hq => by simpa using hq, fun q _ _ => by simp, fun hw => hw.waits_append _ ha ?_, fun _ _ hs => ?_,
          sameLines_of_ports fun q => by simp⟩
        · simpa using hnone
        · rw [servedLaw_iff] at hs ⊢
          intro w hw i
          refine (deliverable_congr (s.setWaits _) s w.port i rfl rfl (by rw [setWaits_port])
            (by rw [setWaits_port])).trans ?_
          rcases List.mem_append.1 hw with hw | hw
          · exact hs w hw i
          · rw [List.mem_singleton.1 hw]
            exact (fetch_eq_none s p).1 hfetch i

theorem handles_ownAck (s : State) (p : Port) (t : Tag) (slot gen : Byte) : Handles p t s (ownAck p slot gen s) :=
  handles_withRef s p t slot gen _ fun i _ => by
    split
    next => exact (answers_reply ..).handles p t
    next n _ =>
      split
      next =>
        unfold acknowledge
        split
        next => exact ((quiet_setNotice s i none fun m hm => by cases hm).answers ..).handles p t
        next f _ => exact handles_serveWaits (s := s) (u := s.renewNotice i n f) (by exact ⟨rfl, rfl, rfl, rfl, rfl⟩) p t _ _
      next => exact (answers_reply ..).handles p t

end State

/-- What each request does to the traffic, on a port that has the session it needs and no COLLECT under way. -/
theorem IsOwner.handles {p : Port} {t : Tag} {needs : Bool} {own : State → State × Reply} (h : IsOwner p t needs own)
    (s : State) (hs : needs = true → s.attached p = true) (hcollect : (s.port p).collecting = none) :
    State.Handles p t s (own s) := by
  cases h with
  | badRequest => exact (State.answers_reply ..).handles p t
  | attach a b => exact State.handles_ownAttach ..
  | set a b => exact State.handles_ownSet ..
  | status a => exact State.handles_ownStatus ..
  | cancel a => exact State.handles_ownCancel ..
  | detach => exact State.handles_ownDetach s p t hcollect
  | define b => exact (State.answers_ownDefine ..).handles p t
  | find k => exact (State.answers_ownFind ..).handles p t
  | read a b => exact (State.answers_withRef _ _ _ _ fun _ => State.answers_reply ..).handles p t
  | summary a => exact (State.answers_ownSummary ..).handles p t
  | retire a b => exact (State.answers_ownRetire ..).handles p t
  | sample a b => exact State.handles_withRef _ _ _ _ _ _ fun _ _ => State.handles_enqueue s p t _ (hs rfl)
  | editOpen a b => exact (State.answers_ownOpen ..).handles p t
  | editSet a b c d e => exact (State.answers_ownEditSet ..).handles p t
  | editCommit a b => exact State.handles_ownCommit ..
  | editDrop a b => exact (State.answers_ownDrop ..).handles p t
  | classConfig a b c => exact (State.answers_ownConfig ..).handles p t
  | classStart a => exact (State.answers_ownStart ..).handles p t
  | classStop a => exact (State.answers_ownStop ..).handles p t
  | classTrigger a => exact (State.answers_ownTrigger ..).handles p t
  | classStatus a b => exact (State.answers_ownClassStatus ..).handles p t
  | listInsert a b c d => exact (State.answers_ownInsert ..).handles p t
  | listRemove a b c => exact (State.answers_ownRemove ..).handles p t
  | listRead a => exact (State.answers_ownListRead ..).handles p t
  | convert a b => exact State.handles_ownConvert s p t a b (hs rfl)
  | fetch => exact (State.answers_ownFetch ..).handles p t
  | wait a => exact State.handles_ownWait s p t a (hs rfl)
  | ack a b => exact State.handles_ownAck ..
  | create a b c d e => exact (State.answers_ownCreate ..).handles p t
  | link a b c => exact (State.answers_ownLink ..).handles p t
  | unlink a b => exact (State.answers_ownUnlink ..).handles p t
  | rearm a b => exact (State.answers_ownRearm ..).handles p t
  | free a => exact (State.answers_ownFree ..).handles p t
  | actionRead a => exact (State.answers_ownActionRead ..).handles p t
  | write a b => exact (State.answers_ownWrite ..).handles p t
  | pin a => exact (State.answers_ownPin ..).handles p t
  | unpin a => exact (State.answers_ownUnpin ..).handles p t
  | fallback a b c => exact (State.answers_ownFallback ..).handles p t
  | outputRead a => exact (State.answers_ownOutputRead ..).handles p t

end Sys2Proof.Machine
end

section
/-! SUPPORT. Every event keeps the tags, the answers and the waiting requests paired, and leaves nothing deliverable to a
port that waits (R71, R76, R121, R163 to R182). -/

namespace Sys2Proof.Machine
namespace State

/-- The laws of the ports' traffic are kept from one state to the other. -/
structure Kept (s u : State) : Prop where
  free : FreeSlotLaw s → FreeSlotLaw u
  legal : PortLaw s → PortLaw u
  waiting : PortLaw s → s.WaitingFor [] → u.WaitingFor []
  served : PortLaw s → s.WaitingFor [] → FreeSlotLaw s → ServedLaw s → ServedLaw u

theorem Kept.refl (s : State) : Kept s s := ⟨id, id, fun _ => id, fun _ _ _ => id⟩

theorem Kept.trans {s u v : State} (h : Kept s u) (h' : Kept u v) : Kept s v where
  free hf := h'.free (h.free hf)
  legal hp := h'.legal (h.legal hp)
  waiting hp hw := h'.waiting (h.legal hp) (h.waiting hp hw)
  served hp hw hf hs := h'.served (h.legal hp) (h.waiting hp hw) (h.free hf) (h.served hp hw hf hs)

theorem freeSlotLaw_of_moves {s u : State} (h : Moves s u) : FreeSlotLaw s → FreeSlotLaw u :=
  h.keeps fun _ _ hf hm => hm.freeSlotLaw hf

/-- What changes no traffic and makes no notice deliverable keeps the laws. -/
theorem Quiet.kept {s u : State} (h : Quiet s u) (hm : Moves s u) : Kept s u where
  free := freeSlotLaw_of_moves hm
  legal hp := (portLaw_iff u).2 fun q => by
    rw [h.1.port]
    exact (portLaw_iff s).1 hp q
  waiting _ hw := waitingFor_of_sameTraffic h.1 hw
  served _ _ _ hs := servedLaw_of_same hs (fun w hw => h.1.waits ▸ hw) h.2 fun w _ => by
    rw [h.1.port]
    exact ⟨rfl, rfl⟩

/-- The laws once the waits have been served, on whatever left the traffic as it was. -/
theorem SameTraffic.kept_serveWaits {s u : State} (h : SameTraffic s u) (hm : Moves s u.serveWaits) :
    Kept s u.serveWaits where
  free := freeSlotLaw_of_moves hm
  legal hp := (portLaw_iff _).2 fun q => legal_serveWaits (by
    rw [h.port]
    exact (portLaw_iff s).1 hp q)
  waiting _ hw := (waitingFor_of_sameTraffic h hw).serveWaits
  served _ hw _ _ := servedLaw_serveWaits (waitingFor_of_sameTraffic h hw)

/-! ## Writes of one port's record -/

/-- A port's record is written with the same WAITING tags (R177). -/
theorem WaitingFor.setPort {s : State} {l : List (Port × Tag)} {p : Port} {r : PortRec} (h : s.WaitingFor l)
    (htags : ∀ t, (∃ e ∈ r.openTags, e.tag = t ∧ e.place = .waiting) ↔
      ∃ e ∈ (s.port p).openTags, e.tag = t ∧ e.place = .waiting) (hsession : r.session = (s.port p).session) :
    (s.setPort p r).WaitingFor l := by
  have hwr := waitingRequests_setPort s p r
  refine ⟨by simpa using h.queued, by rw [hwr]; exact h.distinct, fun q t => ?_, fun x hx => ?_, by simpa using h.waits⟩
  · rw [hwr, h.paired, port_setPort]
    split
    next e => exact e ▸ (htags t).symm
    next => exact Iff.rfl
  · rw [hwr] at hx
    rw [attached_setPort s p _ r hsession]
    exact h.attached x hx

theorem servedLaw_setPort {s : State} (h : ServedLaw s) (p : Port) (r : PortRec) (hsession : r.session = (s.port p).session)
    (hthreshold : r.threshold = (s.port p).threshold) : ServedLaw (s.setPort p r) :=
  servedLaw_of_same h (fun w hw => by simpa using hw) (noNewNotice_of_slots (by cases p <;> rfl) fun i => by
    rw [setPort_slot]) fun w _ => by
    rw [port_setPort]
    split
    next e => exact e ▸ ⟨hthreshold, hsession⟩
    next => exact ⟨rfl, rfl⟩

theorem kept_setPort (s : State) (p : Port) (r : PortRec) (hlegal : (s.port p).Legal → r.Legal)
    (htags : (s.port p).Legal → s.WaitingFor [] → ∀ t, (∃ e ∈ r.openTags, e.tag = t ∧ e.place = .waiting) ↔
      ∃ e ∈ (s.port p).openTags, e.tag = t ∧ e.place = .waiting)
    (hsession : r.session = (s.port p).session) (hthreshold : r.threshold = (s.port p).threshold) :
    Kept s (s.setPort p r) where
  free := (move_setPort s p r hsession).freeSlotLaw
  legal hp := (portLaw_iff _).2 fun q => legal_setPort hlegal ((portLaw_iff s).1 hp q)
  waiting hp hw := hw.setPort (htags ((portLaw_iff s).1 hp p) hw) hsession
  served _ _ _ hs := servedLaw_setPort hs p r hsession hthreshold

/-- A write of a port's own settings, which keeps its tags. -/
theorem kept_settings (s : State) (p : Port) (r : PortRec) (hlegal : (s.port p).Legal → r.Legal)
    (htags : r.openTags = (s.port p).openTags) (hsession : r.session = (s.port p).session)
    (hthreshold : r.threshold = (s.port p).threshold) : Kept s (s.setPort p r) :=
  kept_setPort s p r hlegal (fun _ _ t => by rw [htags]) hsession hthreshold

theorem legal_endedCollect {r : PortRec} (h : r.Legal) : PortRec.Legal { r with collecting := none } := by
  obtain ⟨hsound, -⟩ := (PortRec.legal_iff r).1 h
  exact (PortRec.legal_iff _).2 ⟨hsound.settings rfl rfl rfl hsound.errors hsound.dropped hsound.timeout,
    PortRec.collectLegal_of_none rfl⟩

theorem kept_endCollect (s : State) (p : Port) : Kept s (s.endCollect p) :=
  kept_settings s p _ legal_endedCollect rfl rfl rfl

theorem kept_countFrameError (s : State) (p : Port) : Kept s (s.countFrameError p) :=
  kept_settings s p _ (fun h => legal_settings h rfl rfl rfl rfl (Nat.min_le_left ..) (legal_ranges h).2.1
    (legal_ranges h).2.2) rfl rfl rfl

theorem kept_refuse (s : State) (p : Port) (t : Tag) (k : Byte) (code : ResultCode) : Kept s (s.refuse p t k code) := by
  obtain ⟨r, hr, htags, hsession, hthreshold⟩ : ∃ r, s.refuse p t k code = s.setPort p r ∧
      r.openTags = (s.port p).openTags ∧ r.session = (s.port p).session ∧ r.threshold = (s.port p).threshold := by
    unfold refuse
    split
    next => exact ⟨_, rfl, rfl, rfl, rfl⟩
    next => exact ⟨_, rfl, rfl, rfl, rfl⟩
  have hlegal (h : (s.port p).Legal) : r.Legal := by
    have := legal_refuse h t k code
    rwa [hr, port_setPort_self] at this
  exact hr ▸ kept_settings s p r hlegal htags hsession hthreshold

theorem legal_attention {r : PortRec} (h : r.Legal) (b : Bool) : PortRec.Legal { r with attention := b } := by
  exact legal_settings h rfl rfl rfl rfl (legal_ranges h).1 (legal_ranges h).2.1 (legal_ranges h).2.2

theorem kept_setAttention (s : State) (p : Port) : Kept s (s.setAttention p) :=
  kept_settings s p _ (fun h => legal_attention h _) rfl rfl rfl

theorem kept_updateAttention (s : State) : Kept s s.updateAttention :=
  (kept_setAttention s .H).trans (kept_setAttention _ .L)

/-! ## COLLECT (R172) -/

theorem kept_beginCollect (s : State) (p : Port) : Kept s (s.beginCollect p) :=
  kept_settings s p _ (fun h => by simpa [beginCollect] using legal_beginCollect h) rfl rfl rfl

/-- What a COLLECT removes was answered: no WAITING tag goes with it (R170, R172). -/
theorem removeChosen_record {s : State} {p : Port} (h : (s.port p).Legal) (c : Option (Bool × Answer)) (rest : List Byte)
    (hc : (s.port p).collecting = some (.frame c rest)) (t : Tag) :
    (∃ e ∈ ((s.removeChosen p c).port p).openTags, e.tag = t ∧ e.place = .waiting) ↔
      ∃ e ∈ (s.port p).openTags, e.tag = t ∧ e.place = .waiting := by
  obtain ⟨hsound, hcollect⟩ := (PortRec.legal_iff _).1 h
  unfold PortRec.CollectLegal at hcollect
  rw [hc] at hcollect
  rcases c with _ | ⟨_ | _, a⟩
  · exact Iff.rfl
  · rw [removeChosen, port_setPort_self]
    obtain ⟨as, hq⟩ := List.head?_eq_some_iff.1 hcollect.1
    have hq : (s.port p).queue = a :: as := hq
    obtain ⟨e₀, he₀, htag, hplace⟩ := (hsound.paired a.tag).1 (by rw [hq]; exact List.mem_cons_self)
    refine exists_congr fun e => ⟨fun ⟨he, h⟩ => ⟨List.mem_of_mem_filter he, h⟩, fun ⟨he, ht, hw⟩ => ⟨?_, ht, hw⟩⟩
    rw [List.mem_filter, bne_iff_ne]
    refine ⟨he, fun hea => ?_⟩
    rw [List.inj_on_of_nodup_map hsound.distinct he he₀ (hea.trans htag.symm), hplace] at hw
    cases hw
  · rw [removeChosen, port_setPort_self]

theorem removeChosen_settings (s : State) (p : Port) (c : Option (Bool × Answer)) :
    ((s.removeChosen p c).port p).session = (s.port p).session ∧
      ((s.removeChosen p c).port p).threshold = (s.port p).threshold := by
  rcases c with _ | ⟨_ | _, a⟩ <;> simp [removeChosen]

theorem clockBytes_settings (s : State) (p : Port) (n : Nat) :
    ((s.clockBytes p n).port p).session = (s.port p).session ∧
      ((s.clockBytes p n).port p).threshold = (s.port p).threshold := by
  unfold clockBytes
  split
  next => exact ⟨rfl, rfl⟩
  next => exact ⟨rfl, rfl⟩
  next => simp [drive]
  next c rest _ =>
    split
    next => simp [drive]
    next => simpa [drive] using removeChosen_settings s p c

theorem clockBytes_waiting {s : State} {p : Port} (h : (s.port p).Legal) (n : Nat) (t : Tag) :
    (∃ e ∈ ((s.clockBytes p n).port p).openTags, e.tag = t ∧ e.place = .waiting) ↔
      ∃ e ∈ (s.port p).openTags, e.tag = t ∧ e.place = .waiting := by
  unfold clockBytes
  split
  next => exact Iff.rfl
  next => exact Iff.rfl
  next => simp only [drive, port_setPort_self]
  next c rest hc =>
    split
    next => simp only [drive, port_setPort_self]
    next =>
      simp only [drive, port_setPort_self]
      exact removeChosen_record h c rest hc t

theorem kept_clockBytes (s : State) (p : Port) (n : Nat) : Kept s (s.clockBytes p n) := by
  rw [clockBytes_eq]
  exact kept_setPort s p _ (fun h => legal_clockBytes h n) (fun h _ t => clockBytes_waiting h n t)
    (clockBytes_settings s p n).1 (clockBytes_settings s p n).2

theorem kept_collectOn (s : State) (p : Port) (n : Nat) : Kept s (s.collectOn p n) := by
  unfold collectOn
  split
  next => exact (kept_beginCollect s p).trans (kept_clockBytes _ p n)
  next => exact kept_clockBytes s p n

/-! ## Requests (R169) -/

/-- A request's reply closes what its effect left open. -/
theorem Handles.replied {p : Port} {t : Tag} {s : State} {r : State × Reply} (h : Handles p t s r) :
    (PortLaw s → PortLaw (r.1.giveReply p t r.2)) ∧
      (s.WaitingFor [(p, t)] → (r.1.giveReply p t r.2).WaitingFor []) ∧
      (FreeSlotLaw s → s.WaitingFor [(p, t)] → ServedLaw s → ServedLaw (r.1.giveReply p t r.2)) := by
  obtain ⟨u, reply⟩ := r
  have hlegal (hp : PortLaw s) (q : Port) : (u.port q).Legal := h.legal q ((portLaw_iff s).1 hp q)
  cases reply with
  | waits => exact ⟨fun hp => (portLaw_iff u).2 (hlegal hp), h.waiting, h.served⟩
  | done code data =>
    refine ⟨fun hp => (portLaw_iff _).2 fun q => legal_answerTag (hlegal hp q) .., fun hw => (h.waiting hw).answered .., ?_⟩
    intro hf hw hs
    obtain ⟨hnew, hwaits, -, hports⟩ := answerTag_frame u p t code data
    exact servedLaw_of_same (h.served hf hw hs) (fun w hm => hwaits ▸ hm) hnew fun w _ => hports w.port

theorem portLaw_openTag {s : State} (h : PortLaw s) (p : Port) (t : Tag) (k : Byte)
    (hfresh : ∀ e ∈ (s.port p).openTags, e.tag ≠ t) (hroom : (s.port p).openTags.length < 4) :
    PortLaw (s.openTag p t k) := by
  rw [portLaw_iff] at h ⊢
  intro q
  by_cases hq : p = q
  · exact hq ▸ legal_openTag (h p) t k hfresh hroom
  · rw [openTag, port_setPort_ne _ _ _ _ hq]
    exact h q

/-- A request that is accepted keeps the laws where its effect does. -/
theorem kept_accepted (s : State) (p : Port) (t : Tag) (k : Byte) (r : State × Reply)
    (hfresh : ∀ e ∈ (s.port p).openTags, e.tag ≠ t) (hroom : (s.port p).openTags.length < 4)
    (h : Handles p t (s.openTag p t k) r) (hm : Moves s (r.1.giveReply p t r.2)) : Kept s (r.1.giveReply p t r.2) where
  free := freeSlotLaw_of_moves hm
  legal hp := h.replied.1 (portLaw_openTag hp p t k hfresh hroom)
  waiting _ hw := h.replied.2.1 (hw.opened p t k hfresh)
  served _ hw hf hs := h.replied.2.2 ((move_openTag s p t k).freeSlotLaw hf) (hw.opened p t k hfresh)
    (servedLaw_openTag hs p t k)

/-- A request that leaves its list is answered: what its reply does keeps the laws. -/
theorem Handles.kept {p : Port} {t : Tag} {s v : State} {r : State × Reply} (h : Handles p t v r)
    (hv : Moves s v) (hports : ∀ q, v.port q = s.port q) (hwaits : ∀ w ∈ v.waits, w ∈ s.waits) (hnew : NoNewNotice s v)
    (hwaiting : s.WaitingFor [] → v.WaitingFor [(p, t)]) (hm : Moves s (r.1.giveReply p t r.2)) :
    Kept s (r.1.giveReply p t r.2) where
  free := freeSlotLaw_of_moves hm
  legal hp := h.replied.1 ((portLaw_iff v).2 fun q => by
    rw [hports]
    exact (portLaw_iff s).1 hp q)
  waiting _ hw := h.replied.2.1 (hwaiting hw)
  served _ hw hf hs := h.replied.2.2 (freeSlotLaw_of_moves hv hf) (hwaiting hw)
    (servedLaw_of_same hs hwaits hnew fun w _ => by
      rw [hports]
      exact ⟨rfl, rfl⟩)

end State

/-- What a port does with a transaction keeps the laws, once no COLLECT is under way. -/
theorem Acts.kept {p : Port} {s u : State} (h : Acts p s u) (hcollect : (s.port p).collecting = none) :
    State.Kept s u := by
  cases h with
  | counts => exact State.kept_countFrameError s p
  | refuses t kind code => exact State.kept_refuse s p t kind code
  | begins => exact (State.kept_beginCollect s p).trans (State.kept_endCollect _ p)
  | notAttached t kind hfresh hroom =>
    exact State.kept_accepted s p t kind _ hfresh hroom ((State.answers_reply _ .notAttached []).handles p t)
      (Acts.notAttached t kind hfresh hroom).moves
  | owner t kind needs own hown hfresh hroom hsession =>
    refine State.kept_accepted s p t kind _ hfresh hroom (hown.handles _ (fun hn => ?_) ?_)
      (Acts.owner t kind needs own hown hfresh hroom hsession).moves
    · rw [State.openTag_attached]
      exact hsession hn
    · rw [State.openTag, State.port_setPort_self]
      exact hcollect

namespace State

/-! ## The converter (R71 to R85) -/

/-- A change of the converter that keeps the requests it holds. -/
theorem quiet_setFrontEnd (s : State) (fe : FrontEnd) (hqueue : fe.queue = s.frontEnd.queue)
    (hconv : (s.setFrontEnd fe).convertingJob = s.convertingJob) : Quiet s (s.setFrontEnd fe) :=
  ⟨⟨rfl, rfl, rfl, hqueue, hconv⟩, noNewNotice_of_slots rfl fun _ => rfl⟩

/-- A job enters an IDLE converter, which then holds it. -/
theorem enter_holds (s : State) (j : HeldJob) (ch : ChannelNo) (g : Gain) :
    (s.enter j ch g).frontEnd.converter.held = some j ∧ (s.enter j ch g).frontEnd.queue = s.frontEnd.queue ∧
      ∃ fe, s.enter j ch g = s.setFrontEnd fe := by
  unfold enter
  split
  next => exact ⟨rfl, rfl, _, rfl⟩
  next => exact ⟨rfl, rfl, _, rfl⟩

theorem quiet_grantScan (s : State) (c : ClassNo) (j : ScanJob) (hidle : s.frontEnd.converter = .idle) :
    Quiet s (s.grantScan c j) := by
  refine (quiet_setCls s c { s.cls c with job := some { job := j, phase := .converting } }).trans ?_
  obtain ⟨hheld, hqueue, fe, he⟩ :=
    enter_holds (s.setCls c { s.cls c with job := some { job := j, phase := .converting } }) (.scan c j) j.channel j.gain
  rw [he] at hheld hqueue
  rw [grantScan, he]
  refine quiet_setFrontEnd _ fe hqueue ?_
  rw [convertingJob_of_held hheld, convertingJob_of_idle (by rw [setCls_frontEnd, hidle])]
  rfl

/-- The head of the queue enters the converter and stays a waiting request (R73, R80). -/
theorem kept_enterDirect (s : State) (j : DirectJob) (rest : List DirectJob) (ch : ChannelNo) (g : Gain)
    (hidle : s.frontEnd.converter = .idle) (hqueue : s.frontEnd.queue = j :: rest)
    (hm : Moves s (s.popQueue.enter (.direct j ch g) ch g)) : Kept s (s.popQueue.enter (.direct j ch g) ch g) := by
  obtain ⟨hheld, hq, fe, he⟩ := enter_holds s.popQueue (.direct j ch g) ch g
  have hrest : s.popQueue.frontEnd.queue = rest := by simp [popQueue, hqueue]
  have hports (q : Port) : (s.popQueue.enter (.direct j ch g) ch g).port q = s.port q := by
    rw [he, setFrontEnd_port, popQueue, setFrontEnd_port]
  have hwaits : (s.popQueue.enter (.direct j ch g) ch g).waits = s.waits := by rw [he]; rfl
  refine ⟨freeSlotLaw_of_moves hm, fun hp => (portLaw_iff _).2 fun q => ?_, fun _ hw => ?_, fun _ _ _ hs => ?_⟩
  · rw [hports]
    exact (portLaw_iff s).1 hp q
  · refine hw.entered j rest hqueue (convertingJob_of_idle hidle) (hq.trans hrest) ?_ hwaits hports
    rw [convertingJob_of_held hheld, HeldJob.requests,
      if_pos (hw.queued j (by rw [hqueue]; exact List.mem_cons_self))]
  · refine servedLaw_of_same hs (fun w hm => hwaits ▸ hm) ?_ fun w _ => by
      rw [hports]
      exact ⟨rfl, rfl⟩
    rw [he]
    exact noNewNotice_of_slots rfl fun _ => rfl

theorem move_popQueue (s : State) : Move s s.popQueue := move_setFrontEnd s _ fun _ _ => Iff.rfl

theorem kept_grantNext (s : State) : Kept s s.grantNext := by
  have hmoves := moves_grantNext s
  revert hmoves
  unfold grantNext
  split
  next => exact fun _ => .refl s
  next => exact fun _ => .refl s
  next hidle =>
    split
    next j rest hqueue =>
      unfold grantDirect
      split
      next => exact kept_enterDirect s j rest _ _ hidle hqueue
      next =>
        split
        next => exact kept_enterDirect s j rest _ _ hidle hqueue
        next =>
          exact ((answers_reply s.popQueue .staleRef []).handles j.port j.tag).kept (move_popQueue s).moves
            (fun q => by simp [popQueue]) (fun _ => id) (noNewNotice_of_slots rfl fun _ => rfl)
            fun hw => hw.popped j rest hqueue
    next c j _ hposted => exact fun hm => (quiet_grantScan s c j hidle).kept hm
    next => exact fun _ => .refl s

theorem freeConverter_idle (s : State) (raw : RawReading) : (s.freeConverter raw).convertingJob = [] :=
  convertingJob_of_idle rfl

/-- What a direct job's completion does to the traffic, once its request has left the converter (R78, R81). -/
theorem handles_completeSample (s : State) (j : DirectJob) (scan : ScanJob) (raw : RawReading) :
    ∃ r, Handles j.port j.tag s r ∧ s.completeSample j scan raw = r.1.giveReply j.port j.tag r.2 := by
  unfold completeSample
  split
  next =>
    exact ⟨((s.applySample scan.slot raw).serveWaits, .done .ok ((s.applySample scan.slot raw).sampleBytes scan.slot)),
      handles_serveWaits (applySample_points s scan.slot raw).1.traffic .., rfl⟩
  next => exact ⟨_, (answers_reply s .staleRef []).handles _ _, rfl⟩

theorem handles_completeDirect (s : State) (j : DirectJob) (ch : ChannelNo) (g : Gain) (raw : RawReading)
    (h : j.disposition = .answer) :
    ∃ r, Handles j.port j.tag s r ∧ s.completeDirect j ch g raw = r.1.giveReply j.port j.tag r.2 := by
  unfold completeDirect
  rw [h]
  simp only
  split
  next => exact ⟨_, (answers_reply s .ok _).handles _ _, rfl⟩
  next => exact handles_completeSample ..

theorem move_freeDirect (s : State) (j : DirectJob) (ch : ChannelNo) (g : Gain) (raw : RawReading)
    (h : s.frontEnd.converter.held = some (.direct j ch g)) : Move s (s.freeConverter raw) :=
  move_setFrontEnd s _ fun c k => by
    rw [h]
    simp [Converter.held]

theorem kept_completeDirect (s : State) (j : DirectJob) (ch : ChannelNo) (g : Gain) (raw : RawReading)
    (hheld : s.frontEnd.converter.held = some (.direct j ch g))
    (hm : Moves s ((s.freeConverter raw).completeDirect j ch g raw)) :
    Kept s ((s.freeConverter raw).completeDirect j ch g raw) := by
  have hconv := convertingJob_of_held hheld
  rw [HeldJob.requests] at hconv
  cases hd : j.disposition with
  | discard =>
    rw [hd, if_neg (by simp)] at hconv
    have he : (s.freeConverter raw).completeDirect j ch g raw = s.freeConverter raw := by
      rw [completeDirect, hd]
    rw [he] at hm ⊢
    have hquiet : Quiet s (s.freeConverter raw) :=
      ⟨⟨rfl, rfl, rfl, rfl, (freeConverter_idle s raw).trans hconv.symm⟩, noNewNotice_of_slots rfl fun _ => rfl⟩
    exact hquiet.kept hm
  | answer =>
    rw [if_pos hd] at hconv
    obtain ⟨r, hr, he⟩ := handles_completeDirect (s.freeConverter raw) j ch g raw hd
    rw [he] at hm ⊢
    exact hr.kept (move_freeDirect s j ch g raw hheld).moves (fun q => by simp [freeConverter]) (fun _ => id)
      (noNewNotice_of_slots rfl fun _ => rfl) (fun hw => hw.released j hconv _ rfl (freeConverter_idle s raw)) hm

theorem kept_complete (s : State) (j : HeldJob) (raw : RawReading) (h : s.frontEnd.converter.held = some j) :
    Kept s ((s.freeConverter raw).completeJob j raw) := by
  have hm := moves_complete s j raw h
  cases j with
  | scan c scan =>
    have hfree : SameTraffic s (s.freeConverter raw) :=
      ⟨rfl, rfl, rfl, rfl, by rw [freeConverter_idle, convertingJob_of_held h]; rfl⟩
    exact SameTraffic.kept_serveWaits ((hfree.trans (evaluate_points _ scan raw).traffic).trans (quiet_finishJob _ c).1) hm
  | direct j ch g => exact kept_completeDirect s j ch g raw h hm

/-! ## Timers and edges -/

theorem kept_advanceTo (s : State) (due : Nat) : Kept s (s.advanceTo due) :=
  Quiet.kept ⟨⟨rfl, rfl, rfl, rfl, rfl⟩, noNewNotice_of_slots rfl fun _ => rfl⟩ (s.move_advanceTo due).moves

theorem kept_trigger (s : State) (c : ClassNo) : Kept s (s.trigger c).1 := (quiet_trigger s c).kept (moves_trigger s c)

theorem kept_foldl {α : Type} (f : State → α → State) (hf : ∀ s a, Kept s (f s a)) (l : List α) (s : State) :
    Kept s (l.foldl f s) := by
  induction l generalizing s with
  | nil => exact .refl _
  | cons a l ih => exact (hf s a).trans (ih _)

/-- The timeout of a wait: its request leaves the list and is answered (R127). -/
theorem kept_timesOut (s : State) (p : Port) (w : WaitRec) (h : s.waits.find? (fun w => w.port == p) = some w) :
    Kept s ((s.dropWait p).answerTag p w.tag .none []) := by
  have hp : w.port = p := by simpa using List.find?_some h
  subst hp
  have hmove : Move s (s.dropWait w.port) := move_setWaits ..
  exact ((answers_reply (s.dropWait w.port) .none []).handles w.port w.tag).kept hmove.moves
    (fun q => by simp [dropWait]) (fun v hv => List.mem_of_mem_filter hv) (noNewNotice_of_slots rfl fun _ => rfl)
    (fun hw => hw.dropped w (List.mem_of_find?_eq_some h)) (hmove.moves.move (move_answerTag ..))

end State

/-- What the part does on its own keeps the laws. -/
theorem Occurs.kept {s u : State} (h : Occurs s u) : State.Kept s u := by
  cases h with
  | nothing => exact .refl _
  | period c due h =>
    exact ((s.kept_advanceTo due).trans ((State.quiet_setCls ..).kept
      (State.move_restartPeriod (s.advanceTo due) c due _ h).moves)).trans (State.kept_trigger _ c)
  | edge line =>
    refine State.kept_foldl _ (fun s c => ?_) _ s
    split
    next => exact State.kept_trigger s c
    next => exact .refl _
  | grant => exact State.kept_grantNext s
  | settles j due h =>
    refine (s.kept_advanceTo due).trans ((State.quiet_setFrontEnd (s.advanceTo due) { s.frontEnd with
      converter := .sampling j (max s.now due + Config.conversionTime) } (by rfl) ?_).kept (.move (.refl _)
        (State.move_setFrontEnd _ _ fun c k => ?_)))
    · rw [State.convertingJob_of_held (j := j) (by rfl), State.convertingJob_of_held (j := j)]
      rw [State.advanceTo]
      simp [h, Converter.held]
    · simp [h, Converter.held]
  | completes j due raw h =>
    exact (s.kept_advanceTo due).trans (State.kept_complete (s.advanceTo due) j raw (by simp [h, Converter.held]))
  | lapses i c h =>
    exact (s.kept_advanceTo c.due).trans ((State.quiet_setSlot _ i _ (by rfl)).kept
      (State.move_dropClaim (s.advanceTo c.due) i c h).moves)
  | goesStale i due h =>
    refine (s.kept_advanceTo due).trans (State.SameTraffic.kept_serveWaits ?_
      (State.moves_goesStale (s.advanceTo due) i due h))
    exact (State.sameTraffic_setSlot ..).trans (State.raise_points ..).traffic
  | timesOut p w h => exact (s.kept_advanceTo w.due).trans (State.kept_timesOut (s.advanceTo w.due) p w h)

end Sys2Proof.Machine
end

section
/-! SUPPORT. Tags and answers stay paired through every step (R71, R76, R121, R163, R171, R172, R177). -/

namespace Sys2Proof.Machine
namespace State

/-- The model's own fields, the clock and the RSTn line are in none of the laws. -/
theorem SameRecords.kept {s u : State} (h : s.SameRecords u) : Kept s u := by
  obtain ⟨q, n, m, r, rfl, -⟩ := h
  exact ⟨id, id, fun _ hw => ⟨hw.queued, hw.distinct, hw.paired, hw.attached, hw.waits⟩, fun _ _ _ => id⟩

/-- What a PRSTn line, its select period or an ignored COLLECT changes of a port (R164, R182, R191). -/
theorem kept_line (s : State) (p : Port) (asserted ignored : Bool) (c : Option CollectPhase)
    (hc : c = none ∨ c = some .ignored ∨ c = (s.port p).collecting) :
    Kept s (s.setPort p { s.port p with prstAsserted := asserted, selectIgnored := ignored, collecting := c }) := by
  refine kept_settings s p _ (fun h => ?_) rfl rfl rfl
  obtain ⟨hsound, hcollect⟩ := (PortRec.legal_iff _).1 h
  refine (PortRec.legal_iff _).2 ⟨hsound.settings rfl rfl rfl hsound.errors hsound.dropped hsound.timeout, ?_⟩
  rcases hc with rfl | rfl | rfl
  · exact PortRec.collectLegal_of_none rfl
  · trivial
  · exact hcollect.congr rfl (fun _ => id) fun _ => id

theorem legal_portReset {s : State} {p q : Port} (h : q ≠ p → (s.port q).Legal) (hp : (s.port p).Sound) :
    ((s.portReset p).port q).Legal := by
  by_cases hq : p = q
  · subst hq
    rw [portReset, port_setPort_self]
    refine (PortRec.legal_iff _).2 ⟨hp.cleared.settings rfl rfl rfl (Nat.zero_le _) (Nat.zero_le _) hp.timeout, ?_⟩
    exact PortRec.collectLegal_of_none rfl
  · rw [portReset, port_setPort_ne _ _ _ _ hq]
    exact h (Ne.symm hq)

/-- A DETACHED port has no WAITING tag, for a waiting request needs a session (R177, R181). -/
theorem WaitingFor.no_waiting_tag {s : State} {p : Port} (h : s.WaitingFor []) (hs : (s.port p).session = .detached)
    (t : Tag) : ¬∃ e ∈ (s.port p).openTags, e.tag = t ∧ e.place = .waiting := by
  intro htag
  have hmem := (h.paired p t).2 htag
  rw [List.append_nil] at hmem
  have := h.attached (p, t) hmem
  rw [attached_iff, hs] at this
  cases this

/-- PRSTn on a port without a session: none of its tags is WAITING, so what it clears is no waiting request (R182). -/
theorem kept_portReset (s : State) (p : Port) (hs : (s.port p).session = .detached) : Kept s (s.portReset p) where
  free := (move_portReset s p hs).freeSlotLaw
  legal hp := (portLaw_iff _).2 fun q =>
    legal_portReset (fun _ => (portLaw_iff s).1 hp q) ((PortRec.legal_iff _).1 ((portLaw_iff s).1 hp p)).1
  waiting _ hw := hw.setPort (fun t => by simpa using hw.no_waiting_tag hs t) hs.symm
  served _ _ _ h := servedLaw_setPort h p _ hs.symm rfl

/-- PRSTn on a port with a session: it ends, and the port's record is cleared (R181, R182). -/
theorem kept_endAndReset (s : State) (p : Port) : Kept s ((s.endSession p).portReset p) := by
  have hself := endSession_port_self s p
  have hsession : ((s.endSession p).port p).session = .detached := by rw [hself]
  have hwaiting (hw : s.WaitingFor []) : (s.endSession p).WaitingFor [] := hw.endSession p
  have hreset := kept_portReset (s.endSession p) p hsession
  refine ⟨fun hf => hreset.free (freeSlotLaw_of_moves (moves_endSession s p) hf),
    fun hp => (portLaw_iff _).2 fun q => legal_portReset (fun hq => ?_) ?_,
    fun _ hw => (hwaiting hw).setPort (fun t => by simp [hself]) hsession.symm,
    fun _ hw _ _ => servedLaw_setPort (servedLaw_endSession hw p) p _ hsession.symm rfl⟩
  · rw [endSession_eq]
    refine legal_serveWaits ?_
    rw [sessionEnded_port, if_neg (Ne.symm hq)]
    exact (portLaw_iff s).1 hp q
  · rw [hself]
    exact ((PortRec.legal_iff _).1 ((portLaw_iff s).1 hp p)).1.cleared

end State

/-- Whatever happens is a reset of the part or keeps the laws. -/
theorem Happens.kept {s u : State} (h : Happens s u) : (∃ a b c, u = s.afterReset a b c) ∨ State.Kept s u := by
  have line (s : State) (p : Port) (a b : Bool) :
      State.Kept s (s.setPort p { s.port p with prstAsserted := a, selectIgnored := b }) :=
    s.kept_line p a b _ (.inr (.inr rfl))
  cases h with
  | resets a b c => exact .inl ⟨a, b, c, rfl⟩
  | nothing => exact .inr (.refl s)
  | rstnReleases a b hrst =>
    have hrst : s.SameRecords { s with rstAsserted := false } := ⟨_, _, _, _, rfl, le_rfl⟩
    exact .inr ((hrst.kept.trans (line { s with rstAsserted := false } .H s.portH.prstAsserted a)).trans
      (line _ .L s.portL.prstAsserted b))
  | prstnHeld p hrst => exact .inr (line s p true false)
  | prstnEnds p hrst hp =>
    exact .inr (((line s p true false).trans (State.kept_endAndReset _ p)).trans (State.kept_updateAttention _))
  | prstnClears p hrst hp hs =>
    refine .inr (((line s p true false).trans (State.kept_portReset _ p ?_)).trans (State.kept_updateAttention _))
    rw [State.port_setPort_self]
    exact hs
  | prstnReleases p a hp => exact .inr (line s p false (a && !s.rstAsserted))
  | ignores p c hc hrst hp =>
    exact .inr (s.kept_line p (s.port p).prstAsserted false c (hc.imp id .inl))
  | transacts p v hrst hp hu =>
    exact .inr (((s.kept_endCollect p).trans (hu.kept (by simp))).trans (State.kept_updateAttention _))
  | collects p n => exact .inr ((s.kept_collectOn p n).trans (State.kept_updateAttention _))
  | collectsLast p n =>
    exact .inr (((s.kept_collectOn p n).trans (State.kept_endCollect _ p)).trans (State.kept_updateAttention _))
  | event v hrst hu => exact .inr (hu.kept.trans (State.kept_updateAttention _))

/-- Settles O59: every event keeps the laws of the ports' traffic, and the reset values obey them. -/
theorem stepsKeepTagsAndAnswersPaired : Obligations.StepsKeepTagsAndAnswersPaired := by
  intro s t hport hwait h
  rw [State.waitingLaw_iff] at hwait ⊢
  obtain ⟨u, ⟨q, n, m, hu, hm, -⟩, ht⟩ := step_happens h
  have hrecords : s.SameRecords u := ⟨q, n, m, s.rstAsserted, hu, hm⟩
  rcases ht.kept with ⟨a, b, c, rfl⟩ | hkept
  · exact ⟨portLaw_afterReset .., (State.waitingLaw_iff _).1 (waitingLaw_afterReset ..), fun _ _ => servedLaw_afterReset _ _ _ _⟩
  · have hall := hrecords.kept.trans hkept
    exact ⟨hall.legal hport, hall.waiting hport hwait, hall.served hport hwait⟩

end Sys2Proof.Machine
end

section
/-! SUPPORT. The attention lines, the ports that PRSTn holds and the part that RSTn holds, through every event (R173, R182,
R191). -/

namespace Sys2Proof.Machine

/-- What PRSTn holds of a port: no session and no traffic (R182). -/
def PortRec.Held (r : PortRec) : Prop :=
  r.prstAsserted = true → r.session = .detached ∧ r.openTags = [] ∧ r.queue = [] ∧ r.refusals = [] ∧ r.frameErrors = 0 ∧
    r.dropped = 0 ∧ r.collecting = none

theorem PortRec.held_of_released {r : PortRec} (h : r.prstAsserted = false) : r.Held := fun e => by simp [h] at e

theorem heldLaw_iff (s : State) : HeldLaw s ↔ (∀ p, (s.port p).Held) ∧
    (s.rstAsserted = true → s = s.afterReset true s.portH.prstAsserted s.portL.prstAsserted) := Iff.rfl

namespace State

/-! ## Ports that no event reaches -/

/-- An event reaches no port without an open tag, and moves no PRSTn line. -/
structure Passes (s u : State) : Prop where
  lines : SameLines s u
  untouched : ∀ q, (s.port q).openTags = [] → u.port q = s.port q

theorem Passes.refl (s : State) : Passes s s := ⟨fun _ => rfl, fun _ _ => rfl⟩

theorem Passes.trans {s u v : State} (h : Passes s u) (h' : Passes u v) : Passes s v :=
  ⟨h.lines.trans h'.lines, fun q hq => by rw [h'.untouched q (by rw [h.untouched q hq, hq]), h.untouched q hq]⟩

theorem SameTraffic.passes {s u : State} (h : SameTraffic s u) : Passes s u :=
  ⟨sameLines_of_ports h.port, fun q _ => h.port q⟩

theorem passes_of_ports {s u : State} (h : ∀ q, u.port q = s.port q) : Passes s u := ⟨sameLines_of_ports h, fun q _ => h q⟩

theorem passes_answerTag (s : State) (p : Port) (t : Tag) (code : ResultCode) (data : List Byte) :
    Passes s (s.answerTag p t code data) :=
  ⟨sameLines_answerTag s p t code data, fun q hq => answerTag_port_of_no_tags s p q t code data hq⟩

theorem passes_serveWaits (s : State) : Passes s s.serveWaits :=
  ⟨sameLines_serveWaits s, fun q hq => serveWaits_port_of_no_tags s q hq⟩

/-- What an event passes over stays as PRSTn holds it. -/
theorem Passes.held {s u : State} (h : Passes s u) {q : Port} (hq : (s.port q).Held) : (u.port q).Held := by
  intro hline
  have hline' : (s.port q).prstAsserted = true := by rwa [← h.lines q]
  obtain ⟨hsession, htags, hrest⟩ := hq hline'
  rw [h.untouched q htags]
  exact ⟨hsession, htags, hrest⟩

theorem passes_enter (s : State) (j : HeldJob) (ch : ChannelNo) (g : Gain) : Passes s (s.enter j ch g) := by
  obtain ⟨-, -, fe, he⟩ := enter_holds s j ch g
  exact he ▸ passes_of_ports fun q => setFrontEnd_port ..

theorem passes_popQueue (s : State) : Passes s s.popQueue := passes_of_ports fun q => by simp [popQueue]

theorem passes_grantNext (s : State) : Passes s s.grantNext := by
  unfold grantNext
  split
  next => exact .refl s
  next => exact .refl s
  next hidle =>
    split
    next j _ _ =>
      unfold grantDirect
      split
      next => exact (passes_popQueue s).trans (passes_enter ..)
      next =>
        split
        next => exact (passes_popQueue s).trans (passes_enter ..)
        next => exact (passes_popQueue s).trans (passes_answerTag ..)
    next c j _ _ => exact (quiet_grantScan s c j hidle).1.passes
    next => exact .refl s

theorem passes_completeDirect (s : State) (j : DirectJob) (ch : ChannelNo) (g : Gain) (raw : RawReading) :
    Passes s (s.completeDirect j ch g raw) := by
  unfold completeDirect
  split
  next => exact .refl s
  next =>
    split
    next => exact passes_answerTag ..
    next =>
      unfold completeSample
      split
      next => exact ((applySample_points s _ raw).1.traffic.passes.trans (passes_serveWaits _)).trans (passes_answerTag ..)
      next => exact passes_answerTag ..

theorem passes_completeJob (s : State) (j : HeldJob) (raw : RawReading) : Passes s (s.completeJob j raw) := by
  unfold completeJob
  split
  next c scan =>
    exact ((evaluate_points s scan raw).traffic.passes.trans (quiet_finishJob _ c).1.passes).trans (passes_serveWaits _)
  next j ch g => exact passes_completeDirect s j ch g raw

theorem passes_foldl {α : Type} (f : State → α → State) (hf : ∀ s a, Passes s (f s a)) (l : List α) (s : State) :
    Passes s (l.foldl f s) := by
  induction l generalizing s with
  | nil => exact .refl _
  | cons a l ih => exact (hf s a).trans (ih _)

theorem passes_advanceTo (s : State) (due : Nat) : Passes s (s.advanceTo due) := passes_of_ports fun q => by
  cases q <;> rfl

end State

/-- What the part does on its own reaches no port without an open tag. -/
theorem Occurs.passes {s u : State} (h : Occurs s u) : State.Passes s u := by
  cases h with
  | nothing => exact .refl _
  | period c due h =>
    exact ((s.passes_advanceTo due).trans (State.sameTraffic_setCls ..).passes).trans (State.quiet_trigger _ c).1.passes
  | edge line =>
    refine State.passes_foldl _ (fun s c => ?_) _ s
    split
    next => exact (State.quiet_trigger s c).1.passes
    next => exact .refl _
  | grant => exact State.passes_grantNext s
  | settles j due h =>
    exact (s.passes_advanceTo due).trans (State.passes_of_ports fun q => State.setFrontEnd_port ..)
  | completes j due raw h =>
    have hfree : State.Passes (s.advanceTo due) ((s.advanceTo due).freeConverter raw) :=
      State.passes_of_ports fun q => State.setFrontEnd_port ..
    exact ((s.passes_advanceTo due).trans hfree).trans (State.passes_completeJob _ j raw)
  | lapses i c h => exact (s.passes_advanceTo c.due).trans (State.sameTraffic_setSlot ..).passes
  | goesStale i due h =>
    exact (((s.passes_advanceTo due).trans (State.sameTraffic_setSlot ..).passes).trans
      (State.raise_points ..).traffic.passes).trans (State.passes_serveWaits _)
  | timesOut p w h =>
    have hdrop : State.Passes (s.advanceTo w.due) ((s.advanceTo w.due).dropWait p) :=
      State.passes_of_ports fun q => State.setWaits_port ..
    exact ((s.passes_advanceTo w.due).trans hdrop).trans (State.passes_answerTag ..)

namespace State

/-- A port that takes a transaction is not held, and a port that is held is not reached (R164, R182). -/
theorem held_of_lines {p : Port} {s u : State} (hp : (s.port p).prstAsserted = false) (hlines : SameLines s u)
    (huntouched : ∀ q, q ≠ p → (s.port q).openTags = [] → u.port q = s.port q) {q : Port} (hq : (s.port q).Held) :
    (u.port q).Held := by
  intro hline
  have hline' : (s.port q).prstAsserted = true := by rwa [← hlines q]
  have hne : q ≠ p := fun e => by simp [e, hp] at hline'
  obtain ⟨hsession, htags, hrest⟩ := hq hline'
  rw [huntouched q hne htags]
  exact ⟨hsession, htags, hrest⟩

end State

/-- A transaction moves no PRSTn line and leaves the other port alone where it has no open tag. -/
theorem Acts.untouched {p : Port} {s u : State} (h : Acts p s u) (hcollect : (s.port p).collecting = none) :
    State.SameLines s u ∧ ∀ q, q ≠ p → (s.port q).openTags = [] → u.port q = s.port q := by
  have set (s : State) (r : PortRec) (hr : r.prstAsserted = (s.port p).prstAsserted) :
      State.SameLines s (s.setPort p r) ∧ ∀ q, q ≠ p → (s.port q).openTags = [] → (s.setPort p r).port q = s.port q :=
    ⟨State.sameLines_setPort s p r hr, fun q hq _ => State.port_setPort_ne _ _ _ _ (Ne.symm hq)⟩
  have accepted (t : Tag) (k : Byte) (r : State × Reply) (hr : State.Handles p t (s.openTag p t k) r) :
      State.SameLines s (r.1.giveReply p t r.2) ∧
        ∀ q, q ≠ p → (s.port q).openTags = [] → (r.1.giveReply p t r.2).port q = s.port q := by
    have hopen := set s { s.port p with openTags := (s.port p).openTags ++ [{ tag := t, kind := k, place := .waiting }] } rfl
    have hreply : State.Passes r.1 (r.1.giveReply p t r.2) := by
      unfold State.giveReply
      split
      next => exact State.passes_answerTag ..
      next => exact .refl _
    refine ⟨(hopen.1.trans hr.lines).trans hreply.lines, fun q hq htags => ?_⟩
    have hq1 : (s.openTag p t k).port q = s.port q := hopen.2 q hq htags
    have hq2 : r.1.port q = s.port q := by rw [hr.untouched q hq (by rw [hq1, htags]), hq1]
    rw [hreply.untouched q (by rw [hq2, htags]), hq2]
  cases h with
  | counts => exact set s _ (by rfl)
  | refuses t kind code =>
    unfold State.refuse
    split
    next => exact set s _ (by rfl)
    next => exact set s _ (by rfl)
  | begins =>
    have hbegin : State.SameLines s (s.beginCollect p) ∧ _ := set s _ rfl
    have hend : State.SameLines (s.beginCollect p) ((s.beginCollect p).endCollect p) ∧ _ := set _ _ rfl
    refine ⟨hbegin.1.trans hend.1, fun q hq htags => ?_⟩
    rw [State.endCollect, State.port_setPort_ne _ _ _ _ (Ne.symm hq), State.beginCollect,
      State.port_setPort_ne _ _ _ _ (Ne.symm hq)]
  | notAttached t kind => exact accepted t kind (_, .done .notAttached []) ((State.answers_reply ..).handles p t)
  | owner t kind needs own hown hfresh hroom hsession =>
    refine accepted t kind _ (hown.handles _ (fun hn => ?_) ?_)
    · rw [State.openTag_attached]
      exact hsession hn
    · rw [State.openTag, State.port_setPort_self]
      exact hcollect

namespace State

/-! ## What PRSTn and RSTn hold -/

theorem held_updateAttention {s : State} {q : Port} (h : (s.port q).Held) : (s.updateAttention.port q).Held := by
  rw [updateAttention_eq]
  cases q
  · exact h
  · exact h

theorem sameLines_drive (s : State) (p : Port) (bytes : List Byte) (left : CollectPhase) :
    SameLines s (s.drive p bytes left) := sameLines_setPort s p _ rfl

theorem sameLines_removeChosen (s : State) (p : Port) (c : Option (Bool × Answer)) : SameLines s (s.removeChosen p c) := by
  unfold removeChosen
  split
  next => exact fun _ => rfl
  next => exact sameLines_setPort s p _ rfl
  next => exact sameLines_setPort s p _ rfl

theorem sameLines_clockBytes (s : State) (p : Port) (n : Nat) : SameLines s (s.clockBytes p n) := by
  unfold clockBytes
  split
  next => exact fun _ => rfl
  next => exact fun _ => rfl
  next => exact sameLines_drive _ _ _ _
  next c _ _ =>
    split
    next => exact sameLines_drive _ _ _ _
    next => exact (sameLines_removeChosen s p c).trans (sameLines_drive _ _ _ _)

theorem sameLines_collectOn (s : State) (p : Port) (n : Nat) : SameLines s (s.collectOn p n) := by
  unfold collectOn
  split
  next => exact SameLines.trans (u := s.beginCollect p) (sameLines_setPort s p _ rfl) (sameLines_clockBytes _ p n)
  next => exact sameLines_clockBytes s p n

theorem held_collectOn {s : State} {p : Port} (hp : (s.port p).prstAsserted = false) (n : Nat) {q : Port}
    (hq : (s.port q).Held) : ((s.collectOn p n).port q).Held :=
  held_of_lines hp (sameLines_collectOn s p n)
    (fun q hne _ => by rw [collectOn_eq, port_setPort_ne _ _ _ _ (Ne.symm hne)]) hq

/-- A write of a port's record leaves the ports held where it leaves its own. -/
theorem held_setPort {s : State} {p q : Port} {r : PortRec} (hr : r.Held) (hq : (s.port q).Held) :
    ((s.setPort p r).port q).Held := by
  rw [port_setPort]
  split
  next => exact hr
  next => exact hq

theorem held_endCollect {s : State} {p q : Port} (hp : (s.port p).prstAsserted = false) (hq : (s.port q).Held) :
    ((s.endCollect p).port q).Held :=
  held_setPort (PortRec.held_of_released (r := { s.port p with collecting := none }) hp) hq

theorem held_portReset {s : State} {p q : Port} (hq : q ≠ p → (s.port q).Held) : ((s.portReset p).port q).Held := by
  by_cases h : q = p
  · subst h
    rw [portReset, port_setPort_self]
    exact fun _ => ⟨rfl, rfl, rfl, rfl, rfl, rfl, rfl⟩
  · rw [portReset, port_setPort_ne _ _ _ _ (Ne.symm h)]
    exact hq h

theorem held_endSession {s : State} {p q : Port} (hne : q ≠ p) (hq : (s.port q).Held) : ((s.endSession p).port q).Held := by
  intro hline
  have hline' : (s.port q).prstAsserted = true := by rwa [← sameLines_endSession s p q]
  obtain ⟨hsession, htags, hrest⟩ := hq hline'
  rw [endSession_port_of_no_tags s p q hne htags]
  exact ⟨hsession, htags, hrest⟩

/-- While RSTn is asserted, a PRSTn line that moves leaves the part at its reset values (R191). -/
theorem heldReset_setLine (s : State) (a : Bool) (p : Port)
    (h : s = s.afterReset true s.portH.prstAsserted s.portL.prstAsserted) :
    s.setPort p { s.port p with prstAsserted := a, selectIgnored := false } =
      (s.setPort p { s.port p with prstAsserted := a, selectIgnored := false }).afterReset true
        (s.setPort p { s.port p with prstAsserted := a, selectIgnored := false }).portH.prstAsserted
        (s.setPort p { s.port p with prstAsserted := a, selectIgnored := false }).portL.prstAsserted := by
  generalize s.portH.prstAsserted = hline at h
  generalize s.portL.prstAsserted = lline at h
  rw [h]
  cases p
  · rfl
  · rfl

end State

/-- While RSTn is released, whatever happens but a reset leaves it released. -/
theorem Happens.released {s u : State} (h : Happens s u) (hr : s.rstAsserted = false) :
    (∃ a b c, u = s.afterReset a b c) ∨ u.rstAsserted = false := by
  rcases h.moves with hreset | ⟨r, hfalse, hm⟩
  · exact .inl hreset
  · exact .inr (hm.lines.2.trans (hfalse hr))

/-- Where RSTn is released, the law asks for the held ports alone, and a reset obeys it. -/
theorem Happens.heldLaw_of_ports {s u : State} (h : Happens s u) (hr : s.rstAsserted = false)
    (hu : ∀ q, (u.port q).Held) : HeldLaw u := by
  rcases h.released hr with ⟨a, b, c, rfl⟩ | hreleased
  · exact heldLaw_afterReset ..
  · exact ⟨hu, fun e => by simp [hreleased] at e⟩

/-- Whatever happens leaves the held ports, and the part that RSTn holds, as they are held. -/
theorem Happens.heldLaw {s u : State} (h : Happens s u) (hs : HeldLaw s) : HeldLaw u := by
  obtain ⟨hheld, hreset⟩ := (heldLaw_iff s).1 hs
  have hother (p q : Port) (r : PortRec) (hq : q ≠ p) : ((s.setPort p r).port q).Held := by
    rw [State.port_setPort_ne _ _ _ _ (Ne.symm hq)]
    exact hheld q
  have happened := h
  cases h with
  | nothing => exact hs
  | resets a b c => exact heldLaw_afterReset ..
  | rstnReleases a b hrst =>
    refine ⟨fun q => ?_, fun e => by cases e⟩
    cases q
    · exact hheld .H
    · exact hheld .L
  | prstnHeld p hrst =>
    refine ⟨fun q => State.held_setPort (fun _ => ?_) (hheld q), fun _ => State.heldReset_setLine s true p (hreset hrst)⟩
    have hs := hreset hrst
    generalize s.portH.prstAsserted = hline at hs
    generalize s.portL.prstAsserted = lline at hs
    rw [hs]
    cases p
    · exact ⟨rfl, rfl, rfl, rfl, rfl, rfl, rfl⟩
    · exact ⟨rfl, rfl, rfl, rfl, rfl, rfl, rfl⟩
  | prstnEnds p hr hp =>
    exact happened.heldLaw_of_ports hr fun q => State.held_updateAttention
      (State.held_portReset fun hq => State.held_endSession hq (hother p q _ hq))
  | prstnClears p hr hp hd =>
    exact happened.heldLaw_of_ports hr fun q => State.held_updateAttention (State.held_portReset (hother p q _))
  | prstnReleases p a hp =>
    refine ⟨fun q => State.held_setPort (PortRec.held_of_released (by rfl)) (hheld q), fun hr => ?_⟩
    have hr : s.rstAsserted = true := by simpa using hr
    rw [show (a && !s.rstAsserted) = false by simp [hr]]
    exact State.heldReset_setLine s false p (hreset hr)
  | ignores p c hc hr hp =>
    exact happened.heldLaw_of_ports hr fun q => State.held_setPort (PortRec.held_of_released hp) (hheld q)
  | transacts p v hr hp hu =>
    obtain ⟨hlines, huntouched⟩ := hu.untouched (by simp)
    exact happened.heldLaw_of_ports hr fun q => State.held_updateAttention
      (State.held_of_lines (by simpa using hp) hlines huntouched (State.held_endCollect hp (hheld q)))
  | collects p n hr hp =>
    exact happened.heldLaw_of_ports hr fun q => State.held_updateAttention (State.held_collectOn hp n (hheld q))
  | collectsLast p n hr hp =>
    refine happened.heldLaw_of_ports hr fun q => State.held_updateAttention
      (State.held_endCollect ?_ (State.held_collectOn hp n (hheld q)))
    rw [State.sameLines_collectOn, hp]
  | event v hr hu => exact happened.heldLaw_of_ports hr fun q => State.held_updateAttention (hu.passes.held (hheld q))

/-! ## The attention lines (R173) -/

/-- What a PRSTn line or an ignored COLLECT changes of a port is not looked at by the attention lines. -/
theorem attentionLaw_line {s : State} (h : AttentionLaw s) (p : Port) (a b : Bool) (c : Option CollectPhase) :
    AttentionLaw (s.setPort p { s.port p with prstAsserted := a, selectIgnored := b, collecting := c }) := by
  have hneeded (q : Port) : (s.setPort p { s.port p with prstAsserted := a, selectIgnored := b, collecting := c
      }).attentionNeeded q = s.attentionNeeded q := by
    refine State.attentionNeeded_congr _ _ q ?_ ?_ fun i => State.deliverable_congr _ _ q i (by simp) (by simp) ?_ ?_
    all_goals cases p <;> cases q <;> rfl
  obtain ⟨hH, hL⟩ := h
  constructor
  · rw [hneeded, ← hH]
    cases p <;> rfl
  · rw [hneeded, ← hL]
    cases p <;> rfl

/-- Every event ends with the attention lines set, or touches nothing that they show. -/
theorem Happens.attentionLaw {s u : State} (h : Happens s u) (hs : AttentionLaw s) : AttentionLaw u := by
  cases h with
  | nothing => exact hs
  | resets a b c => exact attentionLaw_afterReset ..
  | rstnReleases a b hrst =>
    have hs' : AttentionLaw { s with rstAsserted := false } := hs
    exact attentionLaw_line (attentionLaw_line hs' .H s.portH.prstAsserted a s.portH.collecting) .L s.portL.prstAsserted b
      s.portL.collecting
  | prstnHeld p hrst => exact attentionLaw_line hs p true false (s.port p).collecting
  | prstnReleases p a hp => exact attentionLaw_line hs p false (a && !s.rstAsserted) (s.port p).collecting
  | ignores p c hc hrst hp => exact attentionLaw_line hs p (s.port p).prstAsserted false c
  | prstnEnds p hr hp => exact State.updateAttention_law _
  | prstnClears p hr hp hd => exact State.updateAttention_law _
  | transacts p v hr hp hu => exact State.updateAttention_law _
  | collects p n hr hp => exact State.updateAttention_law _
  | collectsLast p n hr hp => exact State.updateAttention_law _
  | event v hr hu => exact State.updateAttention_law _

/-- The model's own fields and the clock are no part of what RSTn holds (R191). -/
theorem Waited.heldLaw {s u : State} (h : Waited s u) (hs : HeldLaw s) : HeldLaw u := by
  obtain ⟨q, n, m, rfl, -, -⟩ := h
  refine ⟨hs.1, fun hr => ?_⟩
  have he := hs.2 hr
  dsimp only
  generalize s.portH.prstAsserted = hline at he ⊢
  generalize s.portL.prstAsserted = lline at he ⊢
  rw [he]
  rfl

/-- Settles O60: an event that changes what stands ends with the lines set, and none reaches what the reset lines hold. -/
theorem stepsKeepAttentionAndHeldLines : Obligations.StepsKeepAttentionAndHeldLines := by
  intro s t h
  obtain ⟨u, hu, ht⟩ := step_happens h
  refine ⟨fun hs => ht.attentionLaw ?_, fun hs => ht.heldLaw (hu.heldLaw hs)⟩
  obtain ⟨q, n, m, rfl, -⟩ := hu
  exact hs

end Sys2Proof.Machine
end

section
/-! SUPPORT. The lists, cursors and jobs of the scan classes through the operations of the scheduler (R45 to R66). -/

namespace Sys2Proof.Machine

/-! ## One class -/

/-- A class without a job (R51, R59, R66). -/
def ScanClass.IsIdle (k : ScanClass) : Prop :=
  (k.state = .stopped ∨ k.state = .waiting) ∧ k.job = none ∧ k.removedMark = false

/-- A class whose job waits for its grant stands at the entry it is for (R56). -/
def ScanClass.HasPosted (k : ScanClass) (j : ScanJob) : Prop :=
  k.state = .running ∧ k.job = some { job := j, phase := .posted } ∧ k.removedMark = false ∧
    k.list[k.cursor]? = some { slot := j.slot, gen := j.gen }

/-- A class whose job converts stands at the entry it is for, unless that entry was removed (R57, R63). -/
def ScanClass.IsConverting (k : ScanClass) (j : ScanJob) : Prop :=
  (k.state = .running ∨ k.state = .stopping) ∧ k.job = some { job := j, phase := .converting } ∧
    (k.removedMark = true ∨ k.list[k.cursor]? = some { slot := j.slot, gen := j.gen })

theorem ScanClass.legal_iff (k : ScanClass) : k.Legal ↔
    k.list.length ≤ Config.listCapacity ∧ k.cursor ≤ k.list.length ∧ k.overruns ≤ 255 ∧
      (k.IsIdle ∨ (∃ j, k.HasPosted j) ∨ ∃ j, k.IsConverting j) := by
  unfold ScanClass.Legal
  refine and_congr_right fun _ => and_congr_right fun _ => and_congr_right fun _ => ?_
  unfold ScanClass.IsIdle ScanClass.HasPosted ScanClass.IsConverting
  cases hs : k.state with
  | stopped => cases hj : k.job with
    | none => simp
    | some j => simp
  | waiting => cases hj : k.job with
    | none => simp
    | some j => simp
  | running => cases hj : k.job with
    | none => simp
    | some j =>
      obtain ⟨job, phase⟩ := j
      cases phase with
      | posted => simp
      | converting => simp
  | stopping => cases hj : k.job with
    | none => simp
    | some j =>
      obtain ⟨job, phase⟩ := j
      cases phase with
      | posted => simp
      | converting => simp

/-- The fields that the law of a class speaks of, as they were. -/
theorem ScanClass.legal_congr {k k' : ScanClass} (h : k.Legal) (hlist : k'.list = k.list) (hcursor : k'.cursor = k.cursor)
    (hstate : k'.state = k.state) (hjob : k'.job = k.job) (hmark : k'.removedMark = k.removedMark)
    (hover : k.overruns ≤ 255 → k'.overruns ≤ 255) : k'.Legal := by
  unfold ScanClass.Legal at h ⊢
  rw [hlist, hcursor, hstate, hjob, hmark]
  obtain ⟨h1, h2, h3, h4⟩ := h
  exact ⟨h1, h2, hover h3, h4⟩

theorem ScanClass.Legal.job_of_waiting {k : ScanClass} (h : k.Legal) (hs : k.state = .waiting) :
    k.job = none ∧ k.removedMark = false := by
  obtain ⟨-, -, -, hk⟩ := (ScanClass.legal_iff k).1 h
  rcases hk with ⟨-, hjob, hmark⟩ | ⟨j, hrun, -⟩ | ⟨j, hrun | hrun, -⟩
  · exact ⟨hjob, hmark⟩
  · rw [hs] at hrun; cases hrun
  · rw [hs] at hrun; cases hrun
  · rw [hs] at hrun; cases hrun

theorem ScanClass.Legal.idle_of_stopped {k : ScanClass} (h : k.Legal) (hs : k.state = .stopped) :
    k.job = none ∧ k.removedMark = false := by
  obtain ⟨-, -, -, hk⟩ := (ScanClass.legal_iff k).1 h
  rcases hk with ⟨-, hjob, hmark⟩ | ⟨j, hrun, -⟩ | ⟨j, hrun | hrun, -⟩
  · exact ⟨hjob, hmark⟩
  · rw [hs] at hrun; cases hrun
  · rw [hs] at hrun; cases hrun
  · rw [hs] at hrun; cases hrun

theorem ScanClass.Legal.converting {k : ScanClass} (h : k.Legal) {j : ScanJob}
    (hj : k.job = some { job := j, phase := .converting }) : k.IsConverting j := by
  obtain ⟨-, -, -, hk⟩ := (ScanClass.legal_iff k).1 h
  rcases hk with ⟨-, hjob, -⟩ | ⟨i, -, hjob, -⟩ | ⟨i, hi⟩
  · rw [hj] at hjob; cases hjob
  · rw [hj] at hjob; cases hjob
  · have hjob := hi.2.1
    rw [hj] at hjob
    cases hjob
    exact hi

theorem ScanClass.Legal.posted {k : ScanClass} (h : k.Legal) {j : ScanJob}
    (hj : k.job = some { job := j, phase := .posted }) : k.HasPosted j := by
  obtain ⟨-, -, -, hk⟩ := (ScanClass.legal_iff k).1 h
  rcases hk with ⟨-, hjob, -⟩ | ⟨i, hi⟩ | ⟨i, -, hjob, -⟩
  · rw [hj] at hjob; cases hjob
  · have hjob := hi.2.1
    rw [hj] at hjob
    cases hjob
    exact hi
  · rw [hj] at hjob; cases hjob

/-! ## A list as an entry comes in or goes -/

theorem getElem?_insertIdx_moved {α : Type} (l : List α) (k n : Nat) (a b : α) (h : l[n]? = some b) :
    (l.insertIdx k a)[if k ≤ n then n + 1 else n]? = some b := by
  have hn : n < l.length := (List.getElem?_eq_some_iff.1 h).1
  rw [List.getElem?_insertIdx]
  split
  next hkn => simp [show ¬n + 1 < k by omega, show n + 1 ≠ k by omega, h]
  next hkn => simp [show n < k by omega, h]

theorem getElem?_eraseIdx_before {α : Type} (l : List α) (k n : Nat) (b : α) (hk : k < n) (h : l[n]? = some b) :
    (l.eraseIdx k)[n - 1]? = some b := by
  rw [List.getElem?_eraseIdx, if_neg (by omega), show n - 1 + 1 = n by omega, h]

theorem getElem?_eraseIdx_beyond {α : Type} (l : List α) (k n : Nat) (b : α) (hk : n < k) (h : l[n]? = some b) :
    (l.eraseIdx k)[n]? = some b := by
  rw [List.getElem?_eraseIdx, if_pos hk, h]

namespace State

/-! ## Passes -/

/-- What the next job of a pass changes of its class: its state and its job, and no class that is STOPPED. -/
theorem continuePass_cls (s : State) (c : ClassNo) : ((s.continuePass c).cls c).list = (s.cls c).list ∧
    ((s.continuePass c).cls c).source = (s.cls c).source ∧
    ((s.continuePass c).cls c).periodTimer = (s.cls c).periodTimer ∧
    (((s.continuePass c).cls c).state = .stopped ↔ (s.cls c).state = .stopped) := by
  unfold continuePass
  split
  next h =>
    split
    next => simp
    next => simp [h.1]
  next => exact ⟨rfl, rfl, rfl, Iff.rfl⟩

/-- A class that runs and holds no job posts its next one or completes its pass: either way it is legal (R56, R59). -/
theorem legal_continuePass (s : State) (c : ClassNo) (hstate : (s.cls c).state = .running) (hjob : (s.cls c).job = none)
    (hmark : (s.cls c).removedMark = false) (hlen : (s.cls c).list.length ≤ Config.listCapacity)
    (hcursor : (s.cls c).cursor ≤ (s.cls c).list.length) (hover : (s.cls c).overruns ≤ 255) :
    ((s.continuePass c).cls c).Legal := by
  unfold continuePass
  rw [if_pos ⟨hstate, hjob⟩]
  split
  next e he =>
    rw [cls_setCls_self, ScanClass.legal_iff]
    exact ⟨hlen, hcursor, hover, .inr (.inl ⟨s.jobFor e, hstate, rfl, hmark, he⟩)⟩
  next =>
    rw [cls_setCls_self, ScanClass.legal_iff]
    exact ⟨hlen, hcursor, hover, .inl ⟨.inr rfl, hjob, hmark⟩⟩

/-- The next job of a pass is POSTED: no class's job begins to convert by it. -/
theorem continuePass_job (s : State) (c : ClassNo) (j : ScanJob) :
    ((s.continuePass c).cls c).job = some { job := j, phase := .converting } ↔
      (s.cls c).job = some { job := j, phase := .converting } := by
  unfold continuePass
  split
  next h =>
    split
    next => simp [h.2]
    next => simp
  next => exact Iff.rfl

/-! ## Removal (R61 to R63) -/

theorem removeEntry_cls (s : State) (c : ClassNo) (k : Nat) :
    ((s.removeEntry c k).cls c).list = (s.cls c).list.eraseIdx k ∧
    ((s.removeEntry c k).cls c).source = (s.cls c).source ∧
    ((s.removeEntry c k).cls c).periodTimer = (s.cls c).periodTimer ∧
    (((s.removeEntry c k).cls c).state = .stopped ↔ (s.cls c).state = .stopped) ∧
    ∀ j, ((s.removeEntry c k).cls c).job = some { job := j, phase := .converting } ↔
      (s.cls c).job = some { job := j, phase := .converting } := by
  unfold removeEntry
  split
  next => simp
  next =>
    split
    next => simp
    next =>
      split
      next hj => simp [hj]
      next job hj =>
        split
        next hp =>
          obtain ⟨hlist, hsource, htimer, hstate⟩ := continuePass_cls
            (s.setCls c { s.cls c with list := (s.cls c).list.eraseIdx k, job := none }) c
          refine ⟨by simpa using hlist, by simpa using hsource, by simpa using htimer, by simpa using hstate, fun j => ?_⟩
          rw [continuePass_job]
          obtain ⟨job, phase⟩ := job
          cases hp
          simp [hj]
        next => simp

theorem legal_removeEntry (s : State) (c : ClassNo) (k : Nat) (h : (s.cls c).Legal) (hk : k < (s.cls c).list.length) :
    ((s.removeEntry c k).cls c).Legal := by
  obtain ⟨hlen, hcursor, hover, hphase⟩ := (ScanClass.legal_iff _).1 h
  have hlen' : ((s.cls c).list.eraseIdx k).length ≤ Config.listCapacity := by
    rw [List.length_eraseIdx_of_lt hk]
    omega
  have hsub : ((s.cls c).list.eraseIdx k).length = (s.cls c).list.length - 1 := List.length_eraseIdx_of_lt hk
  unfold removeEntry
  split
  next hbefore =>
    rw [cls_setCls_self, ScanClass.legal_iff]
    refine ⟨hlen', ?_, hover, ?_⟩
    · show (s.cls c).cursor - 1 ≤ ((s.cls c).list.eraseIdx k).length
      omega
    · rcases hphase with hidle | ⟨j, hstate, hjob, hmark, hentry⟩ | ⟨j, hstate, hjob, hentry⟩
      · exact .inl hidle
      · exact .inr (.inl ⟨j, hstate, hjob, hmark, getElem?_eraseIdx_before _ _ _ _ hbefore hentry⟩)
      · exact .inr (.inr ⟨j, hstate, hjob, hentry.imp id (getElem?_eraseIdx_before _ _ _ _ hbefore)⟩)
  next hnbefore =>
    split
    next hbeyond =>
      rw [cls_setCls_self, ScanClass.legal_iff]
      refine ⟨hlen', ?_, hover, ?_⟩
      · show (s.cls c).cursor ≤ ((s.cls c).list.eraseIdx k).length
        omega
      · rcases hphase with hidle | ⟨j, hstate, hjob, hmark, hentry⟩ | ⟨j, hstate, hjob, hentry⟩
        · exact .inl hidle
        · exact .inr (.inl ⟨j, hstate, hjob, hmark, getElem?_eraseIdx_beyond _ _ _ _ hbeyond hentry⟩)
        · exact .inr (.inr ⟨j, hstate, hjob, hentry.imp id (getElem?_eraseIdx_beyond _ _ _ _ hbeyond)⟩)
    next hnbeyond =>
      have hcursor' : (s.cls c).cursor ≤ ((s.cls c).list.eraseIdx k).length := by omega
      split
      next hj =>
        rw [cls_setCls_self, ScanClass.legal_iff]
        refine ⟨hlen', hcursor', hover, ?_⟩
        rcases hphase with hidle | ⟨j, -, hjob, -⟩ | ⟨j, -, hjob, -⟩
        · exact .inl hidle
        · rw [hj] at hjob; cases hjob
        · rw [hj] at hjob; cases hjob
      next x hj =>
        obtain ⟨job, phase⟩ := x
        cases phase with
        | posted =>
          obtain ⟨hstate, -, hmark, -⟩ := h.posted hj
          exact legal_continuePass _ c (by simpa using hstate) (by simp) (by simpa using hmark) (by simpa using hlen')
            (by simpa using hcursor') (by simpa using hover)
        | converting =>
          obtain ⟨hstate, hjob, -⟩ := h.converting hj
          simp only
          rw [cls_setCls_self, ScanClass.legal_iff]
          exact ⟨hlen', hcursor', hover, .inr (.inr ⟨job, hstate, hjob, .inl rfl⟩)⟩

/-! ## Insertion (R48, R60) -/

theorem legal_insertEntry (s : State) (c : ClassNo) (k : Nat) (e : ListEntry) (h : (s.cls c).Legal)
    (hk : k ≤ (s.cls c).list.length) (hroom : (s.cls c).list.length < 48) : ((s.insertEntry c k e).cls c).Legal := by
  obtain ⟨hlen, hcursor, hover, hphase⟩ := (ScanClass.legal_iff _).1 h
  have hlen' : ((s.cls c).list.insertIdx k e).length = (s.cls c).list.length + 1 := List.length_insertIdx_of_le_length hk e
  rw [insertEntry, cls_setCls_self, ScanClass.legal_iff]
  refine ⟨by rw [hlen']; exact hroom, ?_, hover, ?_⟩
  · rw [hlen']
    dsimp only
    split
    next => omega
    next => omega
  · rcases hphase with hidle | ⟨j, hstate, hjob, hmark, hentry⟩ | ⟨j, hstate, hjob, hentry⟩
    · exact .inl hidle
    · exact .inr (.inl ⟨j, hstate, hjob, hmark, getElem?_insertIdx_moved _ _ _ _ _ hentry⟩)
    · exact .inr (.inr ⟨j, hstate, hjob, hentry.imp id (getElem?_insertIdx_moved _ _ _ _ _)⟩)

/-! ## The end of a job (R58, R66) -/

theorem legal_reachStopped (s : State) (c : ClassNo) (hlen : (s.cls c).list.length ≤ Config.listCapacity)
    (hover : (s.cls c).overruns ≤ 255) : ((s.reachStopped c).cls c).Legal := by
  rw [reachStopped_cls, ScanClass.legal_iff]
  exact ⟨hlen, Nat.zero_le _, hover, .inl ⟨.inl rfl, rfl, rfl⟩⟩

/-- A class's job that converts ends: the cursor, moved on or kept by the removed mark, is still within the list. -/
theorem jobEnded_cursor (s : State) (c : ClassNo) (j : ScanJob) (h : (s.cls c).Legal) (hj : (s.cls c).IsConverting j) :
    (s.jobEnded c).cursor ≤ (s.cls c).list.length := by
  obtain ⟨-, hcursor, -⟩ := (ScanClass.legal_iff _).1 h
  obtain ⟨-, -, hentry⟩ := hj
  unfold jobEnded
  dsimp only
  split
  next => exact hcursor
  next hmark =>
    have hentry := hentry.resolve_left hmark
    exact (List.getElem?_eq_some_iff.1 hentry).1

theorem legal_finishJob (s : State) (c : ClassNo) (j : ScanJob) (h : (s.cls c).Legal) (hj : (s.cls c).IsConverting j) :
    ((s.finishJob c).cls c).Legal := by
  obtain ⟨hlen, -, hover, -⟩ := (ScanClass.legal_iff _).1 h
  rw [finishJob_eq]
  split
  next => exact legal_reachStopped _ c (by simpa [jobEnded] using hlen) (by simpa [jobEnded] using hover)
  next hstate =>
    have hrun := hj.1.resolve_right hstate
    exact legal_continuePass _ c (by simpa [jobEnded] using hrun) (by simp [jobEnded]) (by simp [jobEnded])
      (by simpa [jobEnded] using hlen) (by rw [cls_setCls_self]; exact jobEnded_cursor s c j h hj) (by simpa [jobEnded] using hover)

theorem finishJob_cls (s : State) (c : ClassNo) : ((s.finishJob c).cls c).list = (s.cls c).list ∧
    ((s.finishJob c).cls c).source = (s.cls c).source ∧
    (∀ j, ((s.finishJob c).cls c).job ≠ some { job := j, phase := .converting }) := by
  rw [finishJob_eq]
  split
  next => simp [reachStopped_cls, jobEnded]
  next =>
    obtain ⟨hlist, hsource, -, -⟩ := continuePass_cls (s.setCls c (s.jobEnded c)) c
    refine ⟨by simpa [jobEnded] using hlist, by simpa [jobEnded] using hsource, fun j => ?_⟩
    rw [ne_eq, continuePass_job]
    simp [jobEnded]

/-! ## Classes that an operation does not reach -/

theorem continuePass_cls_ne (s : State) (c d : ClassNo) (h : c ≠ d) : (s.continuePass c).cls d = s.cls d := by
  obtain ⟨r, hr, -⟩ := continuePass_frame s c
  rw [hr, cls_setCls_ne _ _ _ _ h]

theorem removeEntry_cls_ne (s : State) (c d : ClassNo) (k : Nat) (h : c ≠ d) : (s.removeEntry c k).cls d = s.cls d := by
  obtain ⟨r, hr, -⟩ := removeEntry_frame s c k
  rw [hr, cls_setCls_ne _ _ _ _ h]

theorem finishJob_cls_ne (s : State) (c d : ClassNo) (h : c ≠ d) : (s.finishJob c).cls d = s.cls d := by
  rw [finishJob_eq]
  split
  next => rw [reachStopped_cls_ne _ _ _ h, cls_setCls_ne _ _ _ _ h]
  next => rw [continuePass_cls_ne _ _ _ h, cls_setCls_ne _ _ _ _ h]

end State
end Sys2Proof.Machine
end

section
/-! SUPPORT. The laws of the scheduler, the stale timers and the period timers, kept by every move (R45, R47, R50, R52, R56,
R57, R104). -/

namespace Sys2Proof.Machine
namespace State

/-! ## Lists (R47) -/

/-- R47 by classes: every entry names its point, no list names a slot twice, and no two lists name the same slot. -/
structure ListsSound (s : State) : Prop where
  named : ∀ c, ∀ e ∈ (s.cls c).list, s.names e.slot e.gen = true
  distinct : ∀ c, ((s.cls c).list.map ListEntry.slot).Nodup
  one : ∀ c d e f, e ∈ (s.cls c).list → f ∈ (s.cls d).list → e.slot = f.slot → c = d

theorem listLaw_iff (s : State) : ListLaw s ↔ s.ListsSound := by
  constructor
  · rintro ⟨hnamed, hone⟩
    refine ⟨hnamed, fun c => ?_, fun c d e f he hf h => ?_⟩
    · rw [List.nodup_iff_getElem?_ne_getElem?]
      intro k m hkm hm
      simp only [List.getElem?_map, ne_eq]
      rw [List.length_map] at hm
      rw [List.getElem?_eq_getElem hm, List.getElem?_eq_getElem (hkm.trans hm)]
      intro h
      have := (hone c c k m _ _ (List.getElem?_eq_getElem (hkm.trans hm)) (List.getElem?_eq_getElem hm) (by simpa using h)).2
      omega
    · obtain ⟨k, hk⟩ := List.mem_iff_getElem?.1 he
      obtain ⟨m, hm⟩ := List.mem_iff_getElem?.1 hf
      exact (hone c d k m e f hk hm h).1
  · rintro ⟨hnamed, hdistinct, hone⟩
    refine ⟨hnamed, fun c d k m e f hk hm h => ?_⟩
    obtain rfl := hone c d e f (List.mem_of_getElem? hk) (List.mem_of_getElem? hm) h
    refine ⟨rfl, ?_⟩
    have hk' : ((s.cls c).list.map ListEntry.slot)[k]? = some e.slot := by simp [hk]
    have hm' : ((s.cls c).list.map ListEntry.slot)[m]? = some e.slot := by simp [hm, h]
    obtain ⟨hlt, he⟩ := List.getElem?_eq_some_iff.1 hk'
    obtain ⟨hlt', he'⟩ := List.getElem?_eq_some_iff.1 hm'
    exact (hdistinct c).getElem_inj_iff.1 (he.trans he'.symm)

/-- Lists that have lost entries at most, and whose points are what they were. -/
theorem ListsSound.sublists {s u : State} (h : s.ListsSound) (hsub : ∀ c, (u.cls c).list.Sublist (s.cls c).list)
    (hnames : ∀ c, ∀ e ∈ (u.cls c).list, s.names e.slot e.gen = true → u.names e.slot e.gen = true) : u.ListsSound :=
  ⟨fun c e he => hnames c e he (h.named c e ((hsub c).subset he)), fun c => (h.distinct c).sublist ((hsub c).map _),
    fun c d e f he hf => h.one c d e f ((hsub c).subset he) ((hsub d).subset hf)⟩

/-- An entry of a point that is in no list goes into one (R48). -/
theorem ListsSound.insert {s : State} (h : s.ListsSound) (c : ClassNo) (k : Nat) (i : SlotNo) (g : Generation)
    (hi : s.names i g = true) (hlisted : s.membership i = none) (hk : k ≤ (s.cls c).list.length) :
    (s.insertEntry c k { slot := i, gen := g }).ListsSound := by
  have hnone := (membership_eq_none_iff s i).1 hlisted
  have hslot (d : ClassNo) (e : ListEntry) (he : e ∈ (s.cls d).list) : e.slot ≠ i := by
    rintro rfl
    exact hnone d ⟨e, he, rfl, ((names_iff s _ _).1 (h.named d e he)).2.symm⟩
  have hcls (d : ClassNo) : ((s.insertEntry c k { slot := i, gen := g }).cls d).list =
      if c = d then (s.cls c).list.insertIdx k { slot := i, gen := g } else (s.cls d).list := by
    rw [insertEntry, cls_setCls]
    split
    next => rfl
    next => rfl
  have hmem (d : ClassNo) (e : ListEntry) (he : e ∈ ((s.insertEntry c k { slot := i, gen := g }).cls d).list) :
      (e = { slot := i, gen := g } ∧ d = c) ∨ e ∈ (s.cls d).list := by
    rw [hcls] at he
    split at he
    next hcd =>
      rcases (List.mem_insertIdx hk).1 he with he | he
      · exact .inl ⟨he, hcd.symm⟩
      · exact .inr (hcd ▸ he)
    next => exact .inr he
  refine ⟨fun d e he => ?_, fun d => ?_, fun d d' e f he hf hef => ?_⟩
  · rcases hmem d e he with ⟨rfl, -⟩ | he
    · exact hi
    · exact h.named d e he
  · rw [hcls]
    split
    next =>
      have hperm := (List.perm_insertIdx ({ slot := i, gen := g } : ListEntry) (s.cls c).list hk).map ListEntry.slot
      rw [hperm.nodup_iff, List.map_cons, List.nodup_cons]
      refine ⟨fun hmem => ?_, h.distinct c⟩
      obtain ⟨e, he, hei⟩ := List.mem_map.1 hmem
      exact hslot c e he hei
    next => exact h.distinct d
  · rcases hmem d e he with ⟨rfl, rfl⟩ | he' <;> rcases hmem d' f hf with ⟨rfl, rfl⟩ | hf'
    · rfl
    · exact absurd hef.symm (hslot d' f hf')
    · exact absurd hef (hslot d e he')
    · exact h.one d d' e f he' hf' hef

/-- Once its entry has gone, a point is in no list (R47). -/
theorem ListsSound.removed {s : State} (h : s.ListsSound) (c : ClassNo) (k : Nat) (e : ListEntry)
    (hk : (s.cls c).list[k]? = some e) (d : ClassNo) :
    ∀ f ∈ ((s.removeEntry c k).cls d).list, f.slot ≠ e.slot := by
  intro f hf hslot
  by_cases hcd : c = d
  · subst hcd
    rw [(removeEntry_cls s c k).1, List.mem_eraseIdx_iff_getElem?] at hf
    obtain ⟨m, hmk, hm⟩ := hf
    exact hmk (((listLaw_iff s).2 h).2 c c m k f e hm hk hslot).2
  · rw [removeEntry_cls_ne s c d k hcd] at hf
    exact hcd (h.one c d e f (List.mem_of_getElem? hk) hf hslot.symm)

theorem removeEntry_sublist (s : State) (c d : ClassNo) (k : Nat) :
    ((s.removeEntry c k).cls d).list.Sublist (s.cls d).list := by
  by_cases hcd : c = d
  · subst hcd
    rw [(removeEntry_cls s c k).1]
    exact List.eraseIdx_sublist ..
  · rw [removeEntry_cls_ne s c d k hcd]

theorem indexOf_entry {k : ScanClass} {i : SlotNo} {g : Generation} {n : Nat} (h : k.indexOf i g = some n) :
    k.list[n]? = some { slot := i, gen := g } := by
  obtain ⟨hn, he, -⟩ := List.findIdx?_eq_some_iff_getElem.1 h
  rw [List.getElem?_eq_getElem hn]
  simp only [Bool.and_eq_true, beq_iff_eq] at he
  exact congrArg some (by rw [← he.1, ← he.2])

/-! ## The scheduler's law (R47, R56, R57) -/

/-- What leaves the classes, the class job in the converter and the listed points as they were keeps the law. -/
theorem schedulerLaw_of_same {s u : State} (h : SchedulerLaw s) (hcls : ∀ c, u.cls c = s.cls c)
    (hheld : ∀ c j, u.frontEnd.converter.held = some (.scan c j) ↔ s.frontEnd.converter.held = some (.scan c j))
    (hnames : ∀ i g, s.names i g = true → u.names i g = true) : SchedulerLaw u := by
  obtain ⟨hlists, hlegal, hjobs⟩ := h
  refine ⟨(listLaw_iff u).2 (((listLaw_iff s).1 hlists).sublists (fun c => by rw [hcls]) fun _ e _ => hnames _ _),
    fun c => by rw [hcls]; exact hlegal c, fun c j => by rw [hcls, hheld, hjobs]⟩

/-- What changes one class keeps the law where it keeps the lists, that class's record and the converter's job in
agreement. -/
theorem schedulerLaw_update {s u : State} (h : SchedulerLaw s) (c : ClassNo) (hlists : u.ListsSound)
    (hother : ∀ d, c ≠ d → u.cls d = s.cls d) (hlegal : (u.cls c).Legal)
    (hjob : ∀ j, (u.cls c).job = some { job := j, phase := .converting } ↔
      u.frontEnd.converter.held = some (.scan c j))
    (hheld : ∀ d, c ≠ d → ∀ j, u.frontEnd.converter.held = some (.scan d j) ↔
      s.frontEnd.converter.held = some (.scan d j)) : SchedulerLaw u := by
  obtain ⟨-, hlegals, hjobs⟩ := h
  refine ⟨(listLaw_iff u).2 hlists, fun d => ?_, fun d j => ?_⟩
  · by_cases hcd : c = d
    · exact hcd ▸ hlegal
    · rw [hother d hcd]
      exact hlegals d
  · by_cases hcd : c = d
    · exact hcd ▸ hjob j
    · rw [hother d hcd, hheld d hcd, hjobs]

/-- A change of one class that leaves the converter alone. -/
theorem schedulerLaw_class {s u : State} (h : SchedulerLaw s) (c : ClassNo) (hlists : u.ListsSound)
    (hother : ∀ d, c ≠ d → u.cls d = s.cls d) (hlegal : (u.cls c).Legal)
    (hjob : ∀ j, (u.cls c).job = some { job := j, phase := .converting } ↔
      (s.cls c).job = some { job := j, phase := .converting })
    (hheld : u.frontEnd.converter.held = s.frontEnd.converter.held) : SchedulerLaw u :=
  schedulerLaw_update h c hlists hother hlegal (fun j => by rw [hjob, h.2.2, hheld]) fun d _ j => by rw [hheld]

theorem names_congr {s u : State} {i : SlotNo} (hstate : (u.slot i).state = (s.slot i).state)
    (hgen : (u.slot i).gen = (s.slot i).gen) (g : Generation) : u.names i g = s.names i g := by
  simp only [names, hstate, hgen]

/-- Lists that have lost entries at most, where the points are the same points. -/
theorem ListsSound.samePoints {s u : State} (h : s.ListsSound) (hsame : SamePoints s u)
    (hsub : ∀ c, (u.cls c).list.Sublist (s.cls c).list) : u.ListsSound :=
  h.sublists hsub fun c e _ hn => by rwa [names_congr (hsame.slots _).state (hsame.slots _).gen]

theorem sublist_of_one {s u : State} (c : ClassNo) (hother : ∀ d, c ≠ d → u.cls d = s.cls d)
    (hc : (u.cls c).list.Sublist (s.cls c).list) (d : ClassNo) : (u.cls d).list.Sublist (s.cls d).list := by
  by_cases hcd : c = d
  · exact hcd ▸ hc
  · rw [hother d hcd]

theorem SameButSlots.cls {s u : State} (h : SameButSlots s u) (c : ClassNo) : u.cls c = s.cls c := by
  obtain ⟨-, -, -, -, -, h6, -⟩ := h
  simp only [State.cls, h6]

theorem SameButSlots.frontEnd {s u : State} (h : SameButSlots s u) : u.frontEnd = s.frontEnd := by
  obtain ⟨-, -, -, -, -, -, h7, -⟩ := h
  exact h7

theorem reachStopped_frontEnd (s : State) (c : ClassNo) : (s.reachStopped c).frontEnd = s.frontEnd :=
  (stopTimers_spec (s.cls c).list s).1.frontEnd

theorem continuePass_frontEnd (s : State) (c : ClassNo) : (s.continuePass c).frontEnd = s.frontEnd := by
  obtain ⟨r, hr, -⟩ := continuePass_frame s c
  rw [hr, setCls_frontEnd]

theorem removeEntry_frontEnd (s : State) (c : ClassNo) (k : Nat) : (s.removeEntry c k).frontEnd = s.frontEnd := by
  obtain ⟨r, hr, -⟩ := removeEntry_frame s c k
  rw [hr, setCls_frontEnd]

theorem finishJob_frontEnd (s : State) (c : ClassNo) : (s.finishJob c).frontEnd = s.frontEnd := by
  rw [finishJob_eq]
  split
  next => rw [reachStopped_frontEnd, setCls_frontEnd]
  next => rw [continuePass_frontEnd, setCls_frontEnd]

/-- A class with no job that converts is not the one that the converter works for. -/
theorem not_held_of_job {s : State} (h : SchedulerLaw s) (c : ClassNo)
    (hjob : ∀ j, (s.cls c).job ≠ some { job := j, phase := .converting }) (j : ScanJob) :
    s.frontEnd.converter.held ≠ some (.scan c j) := fun e => hjob j ((h.2.2 c j).2 e)

end State

/-- Every move of the scheduler keeps its law. -/
theorem SchedMove.schedulerLaw {s u : State} (hm : SchedMove s u) (h : SchedulerLaw s) : SchedulerLaw u := by
  have hsame := hm.samePoints
  have hlists := (State.listLaw_iff s).1 h.1
  have hlegal := h.2.1
  have one (c : ClassNo) (hother : ∀ d, c ≠ d → u.cls d = s.cls d) (hlist : (u.cls c).list.Sublist (s.cls c).list) :
      u.ListsSound := hlists.samePoints hsame (State.sublist_of_one c hother hlist)
  have set (c : ClassNo) (r : ScanClass) (d : ClassNo) (hcd : c ≠ d) : (s.setCls c r).cls d = s.cls d :=
    State.cls_setCls_ne s c d r hcd
  cases hm with
  | book c r hlist hcursor hstate hjob hmark hover htimer hsource =>
    refine State.schedulerLaw_class h c (one c (set c r) (by rw [State.cls_setCls_self, hlist])) (set c r) ?_ ?_ rfl
    · rw [State.cls_setCls_self]
      exact ScanClass.legal_congr (hlegal c) hlist hcursor hstate hjob hmark hover
    · intro j
      rw [State.cls_setCls_self, hjob]
  | start c hstate =>
    have hspec := (State.startTimers_spec (s.cls c).list (s.setCls c { s.cls c with
      state := .waiting, overruns := 0
      periodTimer := if (s.cls c).source = .periodic then some (s.now + s.periodTime c) else none })).1
    have hother (d : ClassNo) (hcd : c ≠ d) := (hspec.cls d).trans (set c _ d hcd)
    obtain ⟨hjob, hmark⟩ := (hlegal c).idle_of_stopped hstate
    obtain ⟨hlen, hcursor, -⟩ := (ScanClass.legal_iff _).1 (hlegal c)
    refine State.schedulerLaw_class h c (one c hother ?_) hother ?_ (fun j => ?_) (by rw [hspec.frontEnd]; rfl)
    · rw [hspec.cls, State.cls_setCls_self]
    · rw [hspec.cls, State.cls_setCls_self, ScanClass.legal_iff]
      exact ⟨hlen, hcursor, Nat.zero_le _, .inl ⟨.inr rfl, hjob, hmark⟩⟩
    · rw [hspec.cls, State.cls_setCls_self]
  | stop c hstop =>
    have hother (d : ClassNo) (hcd : c ≠ d) := State.reachStopped_cls_ne s c d hcd
    obtain ⟨hlen, -, hover, -⟩ := (ScanClass.legal_iff _).1 (hlegal c)
    refine State.schedulerLaw_class h c (one c hother (by rw [State.reachStopped_cls])) hother
      (State.legal_reachStopped s c hlen hover) (fun j => ?_) (by rw [State.reachStopped_frontEnd])
    rw [State.reachStopped_cls]
    refine ⟨fun e => (by cases e), fun e => ?_⟩
    rcases hstop with hwaiting | hposted
    · rw [((hlegal c).job_of_waiting hwaiting).1] at e
      cases e
    · cases hposted _ e
  | stopping c j hstate hjob =>
    obtain ⟨hlen, hcursor, hover, -⟩ := (ScanClass.legal_iff _).1 (hlegal c)
    refine State.schedulerLaw_class h c (one c (set c _) (by rw [State.cls_setCls_self])) (set c _) ?_ (fun i => ?_) rfl
    · rw [State.cls_setCls_self, ScanClass.legal_iff]
      exact ⟨hlen, hcursor, hover, .inr (.inr ⟨j, .inr rfl, hjob, ((hlegal c).converting hjob).2.2⟩)⟩
    · rw [State.cls_setCls_self]
  | pass c hstate =>
    have hother (d : ClassNo) (hcd : c ≠ d) := (State.continuePass_cls_ne (s.setCls c { s.cls c with
      state := .running, cursor := 0, passSeq := (s.cls c).passSeq + 1 }) c d hcd).trans (set c _ d hcd)
    obtain ⟨hjob, hmark⟩ := (hlegal c).job_of_waiting hstate
    obtain ⟨hlen, -, hover, -⟩ := (ScanClass.legal_iff _).1 (hlegal c)
    refine State.schedulerLaw_class h c (one c hother ?_) hother ?_ (fun j => ?_) (by
      rw [State.continuePass_frontEnd, State.setCls_frontEnd])
    · rw [(State.continuePass_cls _ c).1, State.cls_setCls_self]
    · exact State.legal_continuePass _ c (by simp) (by simpa using hjob) (by simpa using hmark) (by simpa using hlen)
        (by simp) (by simpa using hover)
    · rw [State.continuePass_job, State.cls_setCls_self]
  | insert c k i g hi hlisted hk hroom =>
    exact State.schedulerLaw_class h c (hlists.insert c k i g hi hlisted hk) (set c _)
      (State.legal_insertEntry s c k _ (hlegal c) hk hroom) (fun j => by rw [State.insertEntry, State.cls_setCls_self]) rfl
  | remove c k i g hi hk =>
    have hother (d : ClassNo) (hcd : c ≠ d) : ((s.removeEntry c k).stopTimer i).cls d = s.cls d :=
      State.removeEntry_cls_ne s c d k hcd
    have hentry := State.indexOf_entry hk
    refine State.schedulerLaw_class h c (one c hother (State.removeEntry_sublist s c c k)) hother
      (State.legal_removeEntry s c k (hlegal c) (List.getElem?_eq_some_iff.1 hentry).1)
      (State.removeEntry_cls s c k).2.2.2.2 (by rw [State.stopTimer, State.setSlot_frontEnd, State.removeEntry_frontEnd])
  | grant c j hidle hjob =>
    obtain ⟨hheld, -, fe, he⟩ := State.enter_holds (s.setCls c { s.cls c with
      job := some { job := j, phase := .converting } }) (.scan c j) j.channel j.gain
    have hcls (d : ClassNo) : (s.grantScan c j).cls d = (s.setCls c { s.cls c with
        job := some { job := j, phase := .converting } }).cls d := by rw [State.grantScan, he, State.setFrontEnd_cls]
    have hheld : (s.grantScan c j).frontEnd.converter.held = some (.scan c j) := hheld
    have hnone : s.frontEnd.converter.held = none := by rw [hidle]; rfl
    have hother (d : ClassNo) (hcd : c ≠ d) := (hcls d).trans (set c _ d hcd)
    obtain ⟨hlen, hcursor, hover, -⟩ := (ScanClass.legal_iff _).1 (hlegal c)
    obtain ⟨hstate, -, -, hentry⟩ := (hlegal c).posted hjob
    refine State.schedulerLaw_update h c (one c hother (by rw [hcls, State.cls_setCls_self])) hother ?_ (fun i => ?_)
      fun d hcd i => ?_
    · rw [hcls, State.cls_setCls_self, ScanClass.legal_iff]
      exact ⟨hlen, hcursor, hover, .inr (.inr ⟨j, .inl hstate, rfl, .inr hentry⟩)⟩
    · rw [hcls, State.cls_setCls_self, hheld]
      simp
    · rw [hheld, hnone]
      simp [hcd]
  | finish c j raw hheld =>
    have hfree (d : ClassNo) : (s.freeConverter raw).cls d = s.cls d := rfl
    have hother (d : ClassNo) (hcd : c ≠ d) : ((s.freeConverter raw).finishJob c).cls d = s.cls d :=
      State.finishJob_cls_ne _ c d hcd
    have hnone : ((s.freeConverter raw).finishJob c).frontEnd.converter.held = none := by
      rw [State.finishJob_frontEnd]
      rfl
    obtain ⟨hlist, -, hjobs⟩ := State.finishJob_cls (s.freeConverter raw) c
    refine State.schedulerLaw_update h c (one c hother (by rw [hlist, hfree])) hother
      (State.legal_finishJob _ c j (hlegal c) ((hlegal c).converting ((h.2.2 c j).2 hheld))) (fun i => ?_) fun d hcd i => ?_
    · rw [hnone]
      exact ⟨fun e => absurd e (hjobs i), fun e => by cases e⟩
    · rw [hnone, hheld]
      simp [hcd]

end Sys2Proof.Machine
end

section
/-! SUPPORT. The stale timers and the period timers through every move, and the laws of the scheduler through every step
(R45, R50, R52, R104). -/

namespace Sys2Proof.Machine
namespace State

/-! ## Period timers (R45, R52) -/

/-- R45, R52 of one class. -/
def PeriodLegal (k : ScanClass) : Prop := k.periodTimer.isSome = true ↔ k.source = .periodic ∧ k.state ≠ .stopped

theorem periodTimerLaw_iff (s : State) : PeriodTimerLaw s ↔ ∀ c, PeriodLegal (s.cls c) := Iff.rfl

theorem periodLegal_congr {k k' : ScanClass} (h : PeriodLegal k) (htimer : k'.periodTimer = k.periodTimer)
    (hsource : k'.source = k.source) (hstate : k'.state = .stopped ↔ k.state = .stopped) : PeriodLegal k' := by
  unfold PeriodLegal at h ⊢
  rw [htimer, hsource, h, ne_eq, ne_eq, hstate]

theorem periodLegal_reachStopped (s : State) (c : ClassNo) : PeriodLegal ((s.reachStopped c).cls c) := by
  rw [reachStopped_cls]
  simp [PeriodLegal]

theorem periodTimerLaw_class {s u : State} (h : PeriodTimerLaw s) (c : ClassNo) (hother : ∀ d, c ≠ d → u.cls d = s.cls d)
    (hc : PeriodLegal (u.cls c)) : PeriodTimerLaw u := by
  intro d
  by_cases hcd : c = d
  · exact hcd ▸ hc
  · rw [hother d hcd]
    exact h d

end State

/-- Every move of the scheduler keeps the period timers with their classes. -/
theorem SchedMove.periodTimerLaw {s u : State} (hm : SchedMove s u) (h : PeriodTimerLaw s) :
    PeriodTimerLaw u := by
  have set (c : ClassNo) (r : ScanClass) (d : ClassNo) (hcd : c ≠ d) : (s.setCls c r).cls d = s.cls d :=
    State.cls_setCls_ne s c d r hcd
  cases hm with
  | book c r hlist hcursor hstate hjob hmark hover htimer hsource =>
    refine State.periodTimerLaw_class h c (set c r) ?_
    rw [State.cls_setCls_self, State.PeriodLegal, htimer, h c, hstate]
    rcases hsource with e | e
    · rw [e]
    · simp [e]
  | start c hstate =>
    have hspec := (State.startTimers_spec (s.cls c).list (s.setCls c { s.cls c with
      state := .waiting, overruns := 0
      periodTimer := if (s.cls c).source = .periodic then some (s.now + s.periodTime c) else none })).1
    refine State.periodTimerLaw_class h c (fun d hcd => (hspec.cls d).trans (set c _ d hcd)) ?_
    rw [hspec.cls, State.cls_setCls_self, State.PeriodLegal]
    dsimp only
    split
    next hp => simp [hp]
    next hp => simp [hp]
  | stop c => exact State.periodTimerLaw_class h c (State.reachStopped_cls_ne s c) (State.periodLegal_reachStopped s c)
  | stopping c j hstate hjob =>
    refine State.periodTimerLaw_class h c (set c _) ?_
    rw [State.cls_setCls_self]
    exact State.periodLegal_congr (h c) rfl rfl (by simp [hstate])
  | pass c hstate =>
    obtain ⟨-, hsource, htimer, hstop⟩ := State.continuePass_cls (s.setCls c { s.cls c with
      state := .running, cursor := 0, passSeq := (s.cls c).passSeq + 1 }) c
    rw [State.cls_setCls_self] at hsource htimer hstop
    exact State.periodTimerLaw_class h c (fun d hcd => (State.continuePass_cls_ne _ c d hcd).trans (set c _ d hcd))
      (State.periodLegal_congr (h c) htimer hsource (by rw [hstop]; simp [hstate]))
  | insert c k i g =>
    refine State.periodTimerLaw_class h c (set c _) ?_
    rw [State.insertEntry, State.cls_setCls_self]
    exact State.periodLegal_congr (h c) rfl rfl Iff.rfl
  | remove c k i g =>
    obtain ⟨-, hsource, htimer, hstop, -⟩ := State.removeEntry_cls s c k
    exact State.periodTimerLaw_class h c (fun d hcd => State.removeEntry_cls_ne s c d k hcd)
      (State.periodLegal_congr (h c) htimer hsource hstop)
  | grant c j hidle hjob =>
    obtain ⟨-, -, fe, he⟩ := State.enter_holds (s.setCls c { s.cls c with
      job := some { job := j, phase := .converting } }) (.scan c j) j.channel j.gain
    rw [State.grantScan, he]
    refine State.periodTimerLaw_class h c (fun d hcd => set c _ d hcd) ?_
    rw [State.setFrontEnd_cls, State.cls_setCls_self]
    exact State.periodLegal_congr (h c) rfl rfl Iff.rfl
  | finish c j raw hheld =>
    have hfree : (s.freeConverter raw).cls c = s.cls c := rfl
    refine State.periodTimerLaw_class h c (fun d hcd => State.finishJob_cls_ne (s.freeConverter raw) c d hcd) ?_
    rw [State.finishJob_eq]
    split
    next => exact State.periodLegal_reachStopped _ c
    next hstate =>
      obtain ⟨-, hsource, htimer, hstop⟩ := State.continuePass_cls
        ((s.freeConverter raw).setCls c ((s.freeConverter raw).jobEnded c)) c
      rw [State.cls_setCls_self] at hsource htimer hstop
      exact State.periodLegal_congr (h c) htimer hsource hstop

namespace State

/-! ## Stale timers (R50, R104) -/

/-- The point is listed in a class that is not STOPPED (R50). -/
def Active (s : State) (i : SlotNo) : Prop := ∃ c, s.ListedIn c i ∧ (s.cls c).state ≠ .stopped

theorem ListsSound.listedIn_iff {s : State} (h : s.ListsSound) (c : ClassNo) (i : SlotNo) :
    s.ListedIn c i ↔ ∃ e ∈ (s.cls c).list, e.slot = i := by
  constructor
  · rintro ⟨e, he, hslot, -⟩
    exact ⟨e, he, hslot⟩
  · rintro ⟨e, he, rfl⟩
    exact ⟨e, he, rfl, ((names_iff s _ _).1 (h.named c e he)).2.symm⟩

theorem ListsSound.listedActive_iff {s : State} (h : s.ListsSound) (i : SlotNo) : s.listedActive i = true ↔ s.Active i :=
  listedActive_iff_of_one fun c d hc hd => by
    obtain ⟨e, he, hei⟩ := (h.listedIn_iff c i).1 hc
    obtain ⟨f, hf, hfi⟩ := (h.listedIn_iff d i).1 hd
    exact h.one c d e f he hf (hei.trans hfi.symm)

/-- R50, R104 of one point. -/
def TimerLegal (s : State) (i : SlotNo) : Prop :=
  ∀ due, (s.slot i).staleTimer = some due →
    s.Active i ∧ ∃ ms, (s.slot i).cfg.staleInterval = some ms ∧ due ≤ s.now + ms * 1000

theorem ListsSound.staleTimerLaw_iff {s : State} (h : s.ListsSound) : StaleTimerLaw s ↔ ∀ i, s.TimerLegal i := by
  simp only [StaleTimerLaw, TimerLegal, h.listedActive_iff]

theorem timerLegal_of_none {s : State} {i : SlotNo} (h : (s.slot i).staleTimer = none) : s.TimerLegal i :=
  fun due e => by rw [h] at e; cases e

/-- A timer that runs on, where its point stays in an active class with its interval. -/
theorem TimerLegal.runsOn {s u : State} {i : SlotNo} (h : s.TimerLegal i) (hnow : s.now ≤ u.now)
    (htimer : (u.slot i).staleTimer = (s.slot i).staleTimer)
    (hinterval : s.Active i → (u.slot i).cfg.staleInterval = (s.slot i).cfg.staleInterval)
    (hactive : s.Active i → u.Active i) : u.TimerLegal i := by
  intro due hdue
  obtain ⟨ha, ms, hms, hle⟩ := h due (htimer ▸ hdue)
  exact ⟨hactive ha, ms, (hinterval ha).trans hms, by omega⟩

/-- A timer that is started with the full interval. -/
theorem timerLegal_started {s : State} {i : SlotNo} (ms : Nat) (hactive : s.Active i)
    (hinterval : (s.slot i).cfg.staleInterval = some ms) (htimer : (s.slot i).staleTimer = some (s.now + ms * 1000)) :
    s.TimerLegal i := by
  intro due hdue
  rw [htimer] at hdue
  cases hdue
  exact ⟨hactive, ms, hinterval, le_rfl⟩

/-- A point stays in an active class where its entry and the class's activity stay. -/
theorem Active.mono {s u : State} {i : SlotNo} (h : s.Active i) (hgen : (u.slot i).gen = (s.slot i).gen)
    (hlist : ∀ c e, e ∈ (s.cls c).list → e.slot = i → (s.cls c).state ≠ .stopped →
      e ∈ (u.cls c).list ∧ (u.cls c).state ≠ .stopped) : u.Active i := by
  obtain ⟨c, ⟨e, he, hslot, heq⟩, hstate⟩ := h
  obtain ⟨he', hstate'⟩ := hlist c e he hslot hstate
  exact ⟨c, ⟨e, he', hslot, heq.trans hgen.symm⟩, hstate'⟩

/-- A change of one class leaves a point active where that class keeps its entry and its activity. -/
theorem Active.mono_class {s u : State} {i : SlotNo} (h : s.Active i) (hgen : (u.slot i).gen = (s.slot i).gen)
    (c : ClassNo) (hother : ∀ d, c ≠ d → u.cls d = s.cls d)
    (hc : ∀ e ∈ (s.cls c).list, e.slot = i → (s.cls c).state ≠ .stopped →
      e ∈ (u.cls c).list ∧ (u.cls c).state ≠ .stopped) : u.Active i :=
  h.mono hgen fun d e he hslot hstate => by
    by_cases hcd : c = d
    · subst hcd
      exact hc e he hslot hstate
    · rw [hother d hcd]
      exact ⟨he, hstate⟩

/-- What writes one class's record, and keeps its entries and its activity, leaves every timer running on. -/
theorem timerLegal_class {s u : State} {i : SlotNo} (h : s.TimerLegal i) (hslot : u.slot i = s.slot i) (hnow : u.now = s.now)
    (c : ClassNo) (hother : ∀ d, c ≠ d → u.cls d = s.cls d)
    (hc : ∀ e ∈ (s.cls c).list, e.slot = i → (s.cls c).state ≠ .stopped →
      e ∈ (u.cls c).list ∧ (u.cls c).state ≠ .stopped) : u.TimerLegal i :=
  h.runsOn hnow.ge (by rw [hslot]) (fun _ => by rw [hslot]) fun ha => ha.mono_class (by rw [hslot]) c hother hc

/-- A class that reaches STOPPED stops the timers of its points and no others (R50, R66). -/
theorem timerLegal_reachStopped {s : State} {i : SlotNo} (h : s.TimerLegal i) (c : ClassNo) :
    (s.reachStopped c).TimerLegal i := by
  have hslot := reachStopped_slot s c i
  have hnow : (s.reachStopped c).now = s.now := (stopTimers_spec (s.cls c).list s).1.2.1
  by_cases hlisted : ∃ e ∈ (s.cls c).list, e.slot = i
  · rw [if_pos hlisted] at hslot
    exact timerLegal_of_none (by rw [hslot])
  · rw [if_neg hlisted] at hslot
    exact timerLegal_class h hslot hnow c (reachStopped_cls_ne s c) fun e he hei => absurd ⟨e, he, hei⟩ hlisted

end State

/-- Every move of the scheduler keeps the stale timers with their points and classes. -/
theorem SchedMove.timerLegal {s u : State} (hm : SchedMove s u) (hsched : SchedulerLaw s) (i : SlotNo)
    (h : s.TimerLegal i) : u.TimerLegal i := by
  have hlists := (State.listLaw_iff s).1 hsched.1
  have set (c : ClassNo) (r : ScanClass) (d : ClassNo) (hcd : c ≠ d) : (s.setCls c r).cls d = s.cls d :=
    State.cls_setCls_ne s c d r hcd
  cases hm with
  | book c r hlist hcursor hstate =>
    refine State.timerLegal_class h rfl rfl c (set c r) fun e he _ hs => ?_
    rw [State.cls_setCls_self, hlist, hstate]
    exact ⟨he, hs⟩
  | start c hstate =>
    obtain ⟨hspec, hslot⟩ := State.startTimers_spec (s.cls c).list (s.setCls c { s.cls c with
      state := .waiting, overruns := 0
      periodTimer := if (s.cls c).source = .periodic then some (s.now + s.periodTime c) else none })
    have hother (d : ClassNo) (hcd : c ≠ d) := (hspec.cls d).trans (set c _ d hcd)
    have hself := hspec.cls c
    rw [State.cls_setCls_self] at hself
    have hslot := hslot i
    rw [State.setCls_slot] at hslot
    have runs (hsame : ((s.setCls c _).startTimers _).slot i = s.slot i) :
        ((s.setCls c { s.cls c with
          state := .waiting, overruns := 0
          periodTimer := if (s.cls c).source = .periodic then some (s.now + s.periodTime c) else none
          }).startTimers (s.cls c).list).TimerLegal i :=
      State.timerLegal_class h hsame hspec.2.1 c hother fun e _ _ hs => absurd hstate hs
    by_cases hlisted : ∃ e ∈ (s.cls c).list, e.slot = i
    · rw [if_pos hlisted] at hslot
      cases hms : (s.slot i).cfg.staleInterval with
      | none =>
        rw [hms] at hslot
        exact runs hslot
      | some ms =>
        rw [hms] at hslot
        obtain ⟨e, he, hei⟩ := hlisted
        refine State.timerLegal_started ms ⟨c, ⟨e, ?_, hei, ?_⟩, ?_⟩ (by rw [hslot]; exact hms) ?_
        · rw [hself]
          exact he
        · rw [hslot, ← hei]
          exact ((State.names_iff s _ _).1 (hlists.named c e he)).2.symm
        · rw [hself]
          simp
        · rw [hslot, hspec.2.1]
    · rw [if_neg hlisted] at hslot
      exact runs hslot
  | stop c => exact State.timerLegal_reachStopped h c
  | stopping c j hstate =>
    refine State.timerLegal_class h rfl rfl c (set c _) fun e he _ _ => ?_
    rw [State.cls_setCls_self]
    exact ⟨he, by simp⟩
  | pass c hstate =>
    obtain ⟨r, hr, -⟩ := State.continuePass_frame (s.setCls c { s.cls c with
      state := .running, cursor := 0, passSeq := (s.cls c).passSeq + 1 }) c
    obtain ⟨hlist, -, -, hstop⟩ := State.continuePass_cls (s.setCls c { s.cls c with
      state := .running, cursor := 0, passSeq := (s.cls c).passSeq + 1 }) c
    rw [State.cls_setCls_self] at hlist hstop
    refine State.timerLegal_class h (by rw [hr]; rfl) (by rw [hr]; rfl) c
      (fun d hcd => (State.continuePass_cls_ne _ c d hcd).trans (set c _ d hcd)) fun e he _ _ => ?_
    rw [hlist, ne_eq, hstop]
    exact ⟨he, by simp⟩
  | insert c k j g hj hlisted hk hroom =>
    refine State.timerLegal_class h rfl rfl c (set c _) fun e he _ hs => ?_
    rw [State.insertEntry, State.cls_setCls_self]
    exact ⟨(List.mem_insertIdx hk).2 (.inr he), hs⟩
  | remove c k j g hj hk =>
    by_cases hij : j = i
    · subst hij
      refine State.timerLegal_of_none ?_
      rw [State.stopTimer, State.slot_setSlot_self]
    · obtain ⟨r, hr, -⟩ := State.removeEntry_frame s c k
      obtain ⟨hlist, -, -, hstop, -⟩ := State.removeEntry_cls s c k
      have hentry := State.indexOf_entry hk
      refine State.timerLegal_class h ?_ (by rw [hr]; rfl) c (fun d hcd => State.removeEntry_cls_ne s c d k hcd)
        fun e he hei hs => ?_
      · rw [State.stopTimer, State.slot_setSlot_ne _ _ _ _ hij, hr, State.setCls_slot]
      · change e ∈ ((s.removeEntry c k).cls c).list ∧ ((s.removeEntry c k).cls c).state ≠ .stopped
        rw [hlist, ne_eq, hstop]
        obtain ⟨m, hm⟩ := List.mem_iff_getElem?.1 he
        refine ⟨List.mem_eraseIdx_iff_getElem?.2 ⟨m, fun hmk => hij ?_, hm⟩, hs⟩
        rw [hmk, hentry] at hm
        cases hm
        exact hei
  | grant c j hidle hjob =>
    obtain ⟨-, -, fe, he⟩ := State.enter_holds (s.setCls c { s.cls c with
      job := some { job := j, phase := .converting } }) (.scan c j) j.channel j.gain
    rw [State.grantScan, he]
    refine State.timerLegal_class h rfl rfl c (fun d hcd => set c _ d hcd) fun e he _ hs => ?_
    rw [State.setFrontEnd_cls, State.cls_setCls_self]
    exact ⟨he, hs⟩
  | finish c j raw hheld =>
    have hended : ((s.freeConverter raw).setCls c ((s.freeConverter raw).jobEnded c)).TimerLegal i :=
      State.timerLegal_class h rfl rfl c (fun d hcd => set c _ d hcd) fun e he _ hs => by
        rw [State.cls_setCls_self]
        exact ⟨he, hs⟩
    rw [State.finishJob_eq]
    split
    next => exact State.timerLegal_reachStopped hended c
    next =>
      obtain ⟨r, hr, -⟩ := State.continuePass_frame ((s.freeConverter raw).setCls c ((s.freeConverter raw).jobEnded c)) c
      obtain ⟨hlist, -, -, hstop⟩ := State.continuePass_cls
        ((s.freeConverter raw).setCls c ((s.freeConverter raw).jobEnded c)) c
      refine State.timerLegal_class hended (by rw [hr]; rfl) (by rw [hr]; rfl) c
        (State.continuePass_cls_ne _ c) fun e he _ hs => ?_
      rw [hlist, ne_eq, hstop]
      exact ⟨he, hs⟩

end Sys2Proof.Machine
end

section
/-! SUPPORT. The laws of the scheduler, the stale timers and the period timers through every move of the part and through
every step (R45, R47, R50, R52, R56, R57, R104). -/

namespace Sys2Proof.Machine
namespace State

/-- The classes, the class job in the converter and, of the points, what the scheduler looks at are as they were, and the
clock has not gone back. -/
structure SameSchedule (s u : State) : Prop where
  classes : ∀ c, u.cls c = s.cls c
  held : ∀ c j, u.frontEnd.converter.held = some (.scan c j) ↔ s.frontEnd.converter.held = some (.scan c j)
  now : s.now ≤ u.now
  points : ∀ i, (u.slot i).state = (s.slot i).state ∧ (u.slot i).gen = (s.slot i).gen ∧
    (u.slot i).staleTimer = (s.slot i).staleTimer ∧ (u.slot i).cfg = (s.slot i).cfg

theorem SameSchedule.schedulerLaw {s u : State} (h : SameSchedule s u) (hs : SchedulerLaw s) : SchedulerLaw u :=
  schedulerLaw_of_same hs h.classes h.held fun i g hn => by
    obtain ⟨hstate, hgen, -⟩ := h.points i
    rwa [names_congr hstate hgen]

theorem SameSchedule.timerLegal {s u : State} (h : SameSchedule s u) {i : SlotNo} (hi : s.TimerLegal i) :
    u.TimerLegal i := by
  obtain ⟨-, hgen, htimer, hcfg⟩ := h.points i
  exact hi.runsOn h.now htimer (fun _ => by rw [hcfg]) fun ha => ha.mono hgen fun c e he _ hs => by
    rw [h.classes]
    exact ⟨he, hs⟩

theorem SameSchedule.periodTimerLaw {s u : State} (h : SameSchedule s u) (hs : PeriodTimerLaw s) : PeriodTimerLaw u :=
  fun c => by
    rw [h.classes]
    exact hs c

theorem SameBlocks.schedule {s u : State} (h : SameBlocks s u) : SameSchedule s u where
  classes c := by simp only [cls, h.classes]
  held := h.held
  now := h.now
  points i := by simp [slot, h.slots]

/-- A write of a point that the scheduler does not look at. -/
theorem sameSchedule_setSlot (s : State) (i : SlotNo) (r : PointSlot) (hstate : r.state = (s.slot i).state)
    (hgen : r.gen = (s.slot i).gen) (htimer : r.staleTimer = (s.slot i).staleTimer) (hcfg : r.cfg = (s.slot i).cfg) :
    SameSchedule s (s.setSlot i r) where
  classes _ := rfl
  held _ _ := Iff.rfl
  now := le_rfl
  points j := by
    rw [slot_setSlot]
    split
    next e => exact e ▸ ⟨hstate, hgen, htimer, hcfg⟩
    next => exact ⟨rfl, rfl, rfl, rfl⟩

theorem sameSchedule_setPort (s : State) (p : Port) (r : PortRec) : SameSchedule s (s.setPort p r) where
  classes c := by rw [setPort_cls]
  held c j := by rw [setPort_frontEnd]
  now := by rw [setPort_now]
  points i := by simp

theorem SameSchedule.trans {s u v : State} (h : SameSchedule s u) (h' : SameSchedule u v) : SameSchedule s v where
  classes c := (h'.classes c).trans (h.classes c)
  held c j := (h'.held c j).trans (h.held c j)
  now := h.now.trans h'.now
  points i := by
    obtain ⟨h1, h2, h3, h4⟩ := h.points i
    obtain ⟨h1', h2', h3', h4'⟩ := h'.points i
    exact ⟨h1'.trans h1, h2'.trans h2, h3'.trans h3, h4'.trans h4⟩

theorem sameSchedule_sessionEnded (s : State) (p : Port) : SameSchedule s (s.sessionEnded p) where
  classes c := by
    obtain ⟨-, -, -, -, hclasses, -⟩ := sessionEnded_rest s p
    simp only [cls, hclasses]
  held c j := by rw [sessionEnded_frontEnd]; exact held_discardFor ..
  now := (sessionEnded_rest s p).2.1.ge
  points i := by
    rw [sessionEnded_slot]
    unfold PointSlot.withoutClaim
    split
    next => exact ⟨rfl, rfl, rfl, rfl⟩
    next => exact ⟨rfl, rfl, rfl, rfl⟩

theorem sameSchedule_useBudget (s : State) (a : ActionNo) : SameSchedule s (s.useBudget a) where
  classes c := by
    obtain ⟨-, -, -, -, -, h6, -⟩ := useBudget_same s a
    simp only [cls, h6]
  held c j := by
    obtain ⟨-, -, -, -, -, -, h7, -⟩ := useBudget_same s a
    rw [h7]
  now := (useBudget_same s a).2.1.ge
  points i := by
    obtain ⟨l, hl⟩ := useBudget_slot s a i
    rw [hl]
    exact ⟨rfl, rfl, rfl, rfl⟩

/-! ## A point's record is written (R36, R50, R91) -/

theorem timerLegal_setSlot {s : State} (hlists : s.ListsSound) (i j : SlotNo) (r : PointSlot) (hr : (s.slot i).Evolves r)
    (ht : s.TimerMoves i r) (h : s.TimerLegal j) : (s.setSlot i r).TimerLegal j := by
  by_cases hij : i = j
  · subst hij
    have hactive (ha : s.Active i) : (s.setSlot i r).Active i :=
      ha.mono (by rw [slot_setSlot_self, hr.gen]) fun c e he _ hs => ⟨he, hs⟩
    rcases ht with hnone | ⟨hruns, hinterval⟩ | ⟨hlisted, ms, hms, hstarts⟩
    · exact timerLegal_of_none (by rw [slot_setSlot_self, hnone])
    · refine h.runsOn (u := s.setSlot i r) le_rfl (by rw [slot_setSlot_self, hruns]) (fun ha => ?_) hactive
      rw [slot_setSlot_self]
      refine hinterval.resolve_right fun hinactive => ?_
      rw [(hlists.listedActive_iff i).2 ha] at hinactive
      cases hinactive
    · exact timerLegal_started ms (hactive ((hlists.listedActive_iff i).1 hlisted)) (by rw [slot_setSlot_self, hms])
        (by rw [slot_setSlot_self, hstarts]; rfl)
  · have hslot : (s.setSlot i r).slot j = s.slot j := slot_setSlot_ne _ _ _ _ hij
    exact h.runsOn (u := s.setSlot i r) le_rfl (by rw [hslot]) (fun _ => by rw [hslot]) fun ha =>
      ha.mono (by rw [hslot]) fun c e he _ hs => ⟨he, hs⟩

/-! ## A definition and a retire (R11, R19) -/

/-- A FREE slot that is defined was in no list, so no other point's entry moves (R11). -/
theorem schedulerLaw_define {s : State} (h : SchedulerLaw s) (i : SlotNo) (hi : (s.slot i).state = .free) (r : PointSlot)
    (m : List KeyEntry) : SchedulerLaw ((s.setSlot i r).setKeyMap m) := by
  refine schedulerLaw_of_same (u := (s.setSlot i r).setKeyMap m) h (fun _ => rfl) (fun _ _ => Iff.rfl) fun j g hn => ?_
  have hij : i ≠ j := by
    rintro rfl
    rw [((names_iff s i g).1 hn).1] at hi
    cases hi
  rwa [names_congr (u := (s.setSlot i r).setKeyMap m) (s := s)
    (by rw [setKeyMap_slot, slot_setSlot_ne _ _ _ _ hij]) (by rw [setKeyMap_slot, slot_setSlot_ne _ _ _ _ hij])]

theorem timerLegal_define {s : State} (i j : SlotNo) (r : PointSlot) (m : List KeyEntry) (hr : r.staleTimer = none)
    (h : s.TimerLegal j) : ((s.setSlot i r).setKeyMap m).TimerLegal j := by
  by_cases hij : i = j
  · subst hij
    exact timerLegal_of_none (by rw [setKeyMap_slot, slot_setSlot_self, hr])
  · have hslot : ((s.setSlot i r).setKeyMap m).slot j = s.slot j := by
      rw [setKeyMap_slot, slot_setSlot_ne _ _ _ _ hij]
    exact h.runsOn (u := (s.setSlot i r).setKeyMap m) le_rfl (by rw [hslot]) (fun _ => by rw [hslot]) fun ha =>
      ha.mono (by rw [hslot]) fun c e he _ hs => ⟨he, hs⟩

/-- The retired point's entry, if it has one, is removed from its class (R19, R61 to R63). -/
theorem retireEntry_cases (s : State) (i : SlotNo) :
    ((∀ c, ¬s.ListedIn c i) ∧ s.retireEntry i = s) ∨ ∃ c k, (s.cls c).list[k]? = some { slot := i, gen := (s.slot i).gen } ∧
      s.retireEntry i = s.removeEntry c k := by
  unfold retireEntry
  cases hm : s.membership i with
  | none => exact .inl ⟨(membership_eq_none_iff s i).1 hm, rfl⟩
  | some x =>
    obtain ⟨c, k⟩ := x
    obtain ⟨e, he, hslot, hgen⟩ := membership_entry s i c k hm
    refine .inr ⟨c, k, ?_, rfl⟩
    rw [he, ← hslot, hslot, ← hgen, ← hslot]

/-- The classes of a retire are those of the removal of its point's entry, which leaves it in no list (R19). -/
theorem retire_lists {s : State} (h : SchedulerLaw s) (i : SlotNo) :
    SchedulerLaw (s.retireEntry i) ∧ ∀ c, ∀ e ∈ ((s.retireEntry i).cls c).list, e.slot ≠ i := by
  have hlists := (listLaw_iff s).1 h.1
  rcases retireEntry_cases s i with ⟨hnone, he⟩ | ⟨c, k, hk, he⟩
  · rw [he]
    refine ⟨h, fun c e hmem hslot => hnone c ((hlists.listedIn_iff c i).2 ⟨e, hmem, hslot⟩)⟩
  · rw [he]
    obtain ⟨r, hr, -⟩ := removeEntry_frame s c k
    refine ⟨schedulerLaw_class h c (hlists.sublists (fun d => removeEntry_sublist s c d k) fun d e _ hn => ?_)
      (fun d hcd => removeEntry_cls_ne s c d k hcd) (legal_removeEntry s c k (h.2.1 c) (List.getElem?_eq_some_iff.1 hk).1)
      (removeEntry_cls s c k).2.2.2.2 (by rw [removeEntry_frontEnd]), fun d => hlists.removed c k _ hk d⟩
    rw [hr]
    exact hn

theorem Retired.cls {s u : State} {i : SlotNo} (h : Retired s u i) (c : ClassNo) : u.cls c = (s.retireEntry i).cls c := by
  simp only [State.cls, h.classes]

theorem retireEntry_frontEnd (s : State) (i : SlotNo) : (s.retireEntry i).frontEnd = s.frontEnd := by
  rcases retireEntry_frame s i with he | ⟨c, r, he⟩
  · rw [he]
  · rw [he, setCls_frontEnd]

theorem retireEntry_slot (s : State) (i j : SlotNo) : (s.retireEntry i).slot j = s.slot j := by
  rcases retireEntry_frame s i with he | ⟨c, r, he⟩
  · rw [he]
  · rw [he, setCls_slot]

theorem schedulerLaw_retire {s : State} (h : SchedulerLaw s) (i : SlotNo) : SchedulerLaw (s.retire i) := by
  have hu := retire_retired s i
  obtain ⟨hentry, hgone⟩ := retire_lists h i
  obtain ⟨hlists, hlegal, hjobs⟩ := hentry
  refine ⟨(listLaw_iff _).2 (((listLaw_iff _).1 hlists).sublists (fun c => by rw [hu.cls]) fun c e he hn => ?_),
    fun c => by rw [hu.cls]; exact hlegal c, fun c j => by rw [hu.cls, hjobs, hu.frontEnd, retireEntry_frontEnd]⟩
  rw [hu.cls] at he
  have hslot : (s.retire i).slot e.slot = (s.retireEntry i).slot e.slot := by
    rw [hu.slots, if_neg (Ne.symm (hgone c e he)), retireEntry_slot]
  rwa [names_congr (s := s.retireEntry i) (u := s.retire i) (by rw [hslot]) (by rw [hslot])]

/-- A retire keeps every class's source, timer and activity. -/
theorem retireEntry_class (s : State) (i : SlotNo) (c : ClassNo) :
    ((s.retireEntry i).cls c).source = (s.cls c).source ∧
      ((s.retireEntry i).cls c).periodTimer = (s.cls c).periodTimer ∧
      (((s.retireEntry i).cls c).state = .stopped ↔ (s.cls c).state = .stopped) ∧
      ∀ e ∈ (s.cls c).list, e.slot ≠ i → e ∈ ((s.retireEntry i).cls c).list := by
  rcases retireEntry_cases s i with ⟨-, he⟩ | ⟨d, k, hk, he⟩
  · rw [he]
    exact ⟨rfl, rfl, Iff.rfl, fun _ he _ => he⟩
  · rw [he]
    by_cases hdc : d = c
    · subst hdc
      obtain ⟨hlist, hsource, htimer, hstop, -⟩ := removeEntry_cls s d k
      refine ⟨hsource, htimer, hstop, fun e he hei => ?_⟩
      rw [hlist]
      obtain ⟨m, hm⟩ := List.mem_iff_getElem?.1 he
      refine List.mem_eraseIdx_iff_getElem?.2 ⟨m, fun hmk => hei ?_, hm⟩
      rw [hmk, hk] at hm
      cases hm
      rfl
    · rw [removeEntry_cls_ne s d c k hdc]
      exact ⟨rfl, rfl, Iff.rfl, fun _ he _ => he⟩

theorem timerLegal_retire {s : State} (i j : SlotNo) (h : s.TimerLegal j) : (s.retire i).TimerLegal j := by
  have hu := retire_retired s i
  have hslot := hu.slots j
  by_cases hij : i = j
  · rw [if_pos hij] at hslot
    exact timerLegal_of_none (by rw [hslot]; rfl)
  · rw [if_neg hij] at hslot
    refine h.runsOn hu.now.ge (by rw [hslot]) (fun _ => by rw [hslot]) fun ha => ha.mono (by rw [hslot])
      fun c e he hej hs => ?_
    obtain ⟨-, -, hstop, hkeeps⟩ := retireEntry_class s i c
    rw [hu.cls, ne_eq, hstop]
    exact ⟨hkeeps e he fun e' => hij (e'.symm.trans hej), hs⟩

theorem periodTimerLaw_retire {s : State} (i : SlotNo) (h : PeriodTimerLaw s) : PeriodTimerLaw (s.retire i) := by
  intro c
  obtain ⟨hsource, htimer, hstop, -⟩ := retireEntry_class s i c
  rw [(retire_retired s i).cls]
  exact periodLegal_congr (h c) htimer hsource hstop

end State

/-- A move either leaves the schedule as it was, or is a point's write, a definition, a retire or the scheduler's own. -/
theorem Move.schedule {s u : State} (hm : Move s u) : State.SameSchedule s u ∨
    (∃ i r, (s.slot i).Evolves r ∧ s.TimerMoves i r ∧ u = s.setSlot i r) ∨
    (∃ i r m, (s.slot i).state = .free ∧ r.staleTimer = none ∧ u = (s.setSlot i r).setKeyMap m) ∨
    (∃ i, u = s.retire i) ∨ SchedMove s u := by
  cases hm with
  | rest _ h => exact .inl h.schedule
  | slot i r hr ht => exact .inr (.inl ⟨i, r, hr, ht, rfl⟩)
  | claim i c => exact .inl (State.sameSchedule_setSlot s i _ rfl rfl rfl rfl)
  | notice i n => exact .inl ⟨fun _ => rfl, fun _ _ => Iff.rfl, le_rfl, fun _ => ⟨rfl, rfl, rfl, rfl⟩⟩
  | pin o r => exact .inl ⟨fun _ => rfl, fun _ _ => Iff.rfl, le_rfl, fun _ => ⟨rfl, rfl, rfl, rfl⟩⟩
  | attach p r => exact .inl (State.sameSchedule_setPort s p r)
  | sessionEnds p => exact .inl (State.sameSchedule_sessionEnded s p)
  | define i key cfg hi => exact .inr (.inr (.inl ⟨i, _, _, hi, rfl, rfl⟩))
  | retire i => exact .inr (.inr (.inr (.inl ⟨i, rfl⟩)))
  | link i a =>
    exact .inl ((State.sameSchedule_setSlot s i { s.slot i with link := some a } rfl rfl rfl rfl).trans
      ⟨fun _ => rfl, fun _ _ => Iff.rfl, le_rfl, fun _ => ⟨rfl, rfl, rfl, rfl⟩⟩)
  | unlink i a =>
    exact .inl ((State.sameSchedule_setSlot s i { s.slot i with link := none } rfl rfl rfl rfl).trans
      ⟨fun _ => rfl, fun _ _ => Iff.rfl, le_rfl, fun _ => ⟨rfl, rfl, rfl, rfl⟩⟩)
  | drive a => exact .inl (State.sameSchedule_useBudget s a)
  | action a r => exact .inl ⟨fun _ => rfl, fun _ _ => Iff.rfl, le_rfl, fun _ => ⟨rfl, rfl, rfl, rfl⟩⟩
  | sched _ h => exact .inr (.inr (.inr (.inr h)))

theorem Move.schedulerLaw {s u : State} (hm : Move s u) (h : SchedulerLaw s) : SchedulerLaw u := by
  rcases hm.schedule with hsame | ⟨i, r, hr, -, rfl⟩ | ⟨i, r, m, hi, -, rfl⟩ | ⟨i, rfl⟩ | hsched
  · exact hsame.schedulerLaw h
  · have hpoints := State.samePoints_setSlot s i r hr
    exact State.schedulerLaw_of_same (u := s.setSlot i r) h (fun _ => rfl) (fun _ _ => Iff.rfl) fun j g hn => by
      rwa [State.names_congr (hpoints.slots j).state (hpoints.slots j).gen]
  · exact State.schedulerLaw_define h i hi r m
  · exact State.schedulerLaw_retire h i
  · exact hsched.schedulerLaw h

theorem Move.timerLegal {s u : State} (hm : Move s u) (hs : SchedulerLaw s) (h : ∀ i, s.TimerLegal i) (i : SlotNo) :
    u.TimerLegal i := by
  rcases hm.schedule with hsame | ⟨j, r, hr, ht, rfl⟩ | ⟨j, r, m, -, hr, rfl⟩ | ⟨j, rfl⟩ | hsched
  · exact hsame.timerLegal (h i)
  · exact State.timerLegal_setSlot ((State.listLaw_iff s).1 hs.1) j i r hr ht (h i)
  · exact State.timerLegal_define j i r m hr (h i)
  · exact State.timerLegal_retire j i (h i)
  · exact hsched.timerLegal hs i (h i)

theorem Move.periodTimerLaw {s u : State} (hm : Move s u) (h : PeriodTimerLaw s) : PeriodTimerLaw u := by
  rcases hm.schedule with hsame | ⟨j, r, -, -, rfl⟩ | ⟨j, r, m, -, -, rfl⟩ | ⟨j, rfl⟩ | hsched
  · exact hsame.periodTimerLaw h
  · exact h
  · exact h
  · exact State.periodTimerLaw_retire j h
  · exact hsched.periodTimerLaw h

/-- Settles O57: every move keeps the scheduler's law, and with it the stale timers and the period timers. -/
theorem stepsKeepTheScheduler : Obligations.StepsKeepTheScheduler := by
  intro s t hsched hfree h
  have law {s : State} (hs : SchedulerLaw s) : StaleTimerLaw s ↔ ∀ i, s.TimerLegal i :=
    ((State.listLaw_iff s).1 hs.1).staleTimerLaw_iff
  have ht : SchedulerLaw t := step_keeps (P := SchedulerLaw) (fun s u h ⟨_, _, _, _, hu, _⟩ => by subst hu; exact h)
    (fun _ _ h hm => hm.schedulerLaw h) schedulerLaw_afterReset hsched h
  refine ⟨ht, fun hstale => (law ht).2 ?_, fun hperiod => ?_⟩
  · refine (step_keeps (P := fun s => SchedulerLaw s ∧ ∀ i, s.TimerLegal i) (fun s u h ⟨_, _, _, _, hu, hnow⟩ => ?_)
      (fun _ _ h hm => ⟨hm.schedulerLaw h.1, hm.timerLegal h.1 h.2⟩) (fun s a b c => ?_) ⟨hsched, (law hsched).1 hstale⟩ h).2
    · subst hu
      exact ⟨h.1, fun i => (h.2 i).runsOn hnow rfl (fun _ => rfl) id⟩
    · exact ⟨schedulerLaw_afterReset s a b c, (law (schedulerLaw_afterReset s a b c)).1 (staleTimerLaw_afterReset s a b c)⟩
  · exact step_keeps (P := PeriodTimerLaw) (fun s u h ⟨_, _, _, _, hu, _⟩ => by subst hu; exact h)
      (fun _ _ h hm => hm.periodTimerLaw h) periodTimerLaw_afterReset hperiod h

end Sys2Proof.Machine
end

section
/-! SUPPORT. Commands as transactions and events (R164 to R169, R191), and the reset lines (R190). -/

namespace Sys2Proof.Machine

/-! ## Every command is a reset line's, a transaction or an event -/

theorem Kind.code_of_ofCode {b : Byte} {k : Kind} (h : Kind.ofCode b = some k) : k.code = b := by
  simpa using List.find?_some h

theorem Kind.ofCode_code (k : Kind) : Kind.ofCode k.code = some k := by cases k <;> rfl

/-- A frame that passed the frame checks goes through the port's checks of its tag, whatever its kind byte says. -/
theorem takeFrame_submit (p : Port) (t : Tag) (kind : Byte) (args : List Byte) :
    ∃ needs own, ∀ s, takeFrame p t kind args s = .next (s.submit p t kind needs own) := by
  unfold takeFrame decodeRequest
  cases hk : Kind.ofCode kind with
  | none => exact ⟨_, _, fun s => rfl⟩
  | some k =>
    by_cases hlen : args.length = k.argCount
    · obtain ⟨args', hparts⟩ := requestParts_requestOf p t k args
      obtain ⟨own, -, hmeans⟩ := request_of_parts hparts
      refine ⟨k != .portAttach, own, fun s => ?_⟩
      simp only [hlen, if_true]
      rw [(hmeans s).2, State.request, Kind.code_of_ofCode hk]
    · exact ⟨false, fun s => s.reply .badRequest, fun s => by simp [hlen]⟩

theorem request_transaction (p : Port) (t : Tag) (k : Kind) (own : State → State × Reply) :
    ∃ act, ∀ s : State, s.request p t k own = s.transaction p act := by
  unfold State.request State.submit
  exact ⟨_, fun s => rfl⟩

theorem takeSubmit_transaction (p : Port) (bytes : List Byte) :
    ∃ act, ∀ s, takeSubmit p bytes s = .next (s.transaction p act) := by
  unfold takeSubmit
  split
  next => exact ⟨_, fun s => rfl⟩
  next t kind args _ =>
    obtain ⟨needs, own, h⟩ := takeFrame_submit p t kind args
    exact ⟨_, h⟩

theorem badCommandByte_transaction (p : Port) (b : Byte) :
    ∃ act, ∀ s, exec (.badCommandByte p b) s = .next (s.transaction p act) := by
  by_cases h1 : b = submitByte
  · obtain ⟨act, h⟩ := takeSubmit_transaction p []
    exact ⟨act, fun s => (if_pos h1).trans (h s)⟩
  · by_cases h2 : b = collectByte
    · exact ⟨_, fun s => (if_neg h1).trans (if_pos h2)⟩
    · exact ⟨_, fun s => (if_neg h1).trans (if_neg h2)⟩

theorem carrier_of_parts {i : Instr} {p q : Port} {t : Tag} {k : Kind} {args : List Byte}
    (h : requestParts i = some (q, t, k, args)) (hp : i.carrier = some p) : q = p := by
  cases i <;> simp only [requestParts, reduceCtorEq] at h <;>
    simpa only [Instr.carrier, requestParts, h, Option.map_some, Option.some.injEq] using hp

/-- A command that a port carries is one transaction of it, or a part of a COLLECT (R164, R172). -/
theorem exec_of_carrier {c : Instr} {p : Port} (h : c.carrier = some p) :
    (∃ part, c = .collect p part) ∨ ∃ act, ∀ s, exec c s = .next (s.transaction p act) := by
  cases hparts : requestParts c with
  | some x =>
    obtain ⟨q, t, k, args⟩ := x
    obtain ⟨own, -, hmeans⟩ := request_of_parts hparts
    obtain rfl := carrier_of_parts hparts h
    obtain ⟨act, hact⟩ := request_transaction q t k own
    exact .inr ⟨act, fun s => by rw [(hmeans s).1, hact]⟩
  | none =>
    cases c with
    | badCommandByte q b =>
      cases h
      exact .inr (badCommandByte_transaction p b)
    | frameDiscard q bytes =>
      cases h
      exact .inr (takeSubmit_transaction p bytes)
    | badRequestFrame q t kind args =>
      cases h
      obtain ⟨needs, own, hmeans⟩ := takeFrame_submit p t kind args
      exact .inr ⟨_, hmeans⟩
    | requestRefusal q t kind args =>
      cases h
      obtain ⟨needs, own, hmeans⟩ := takeFrame_submit p t kind args
      exact .inr ⟨_, hmeans⟩
    | collect q part =>
      cases h
      exact .inl ⟨part, rfl⟩
    | _ => simp [Instr.carrier, requestParts] at h hparts

/-- The commands of the reset lines and of the supply (R190, R191). -/
def Instr.IsReset (c : Instr) : Prop :=
  (∃ r h l, c = .powerUp r h l) ∨ c = .deviceReset ∨ (∃ a b, c = .rstnRelease a b) ∨ (∃ p, c = .prstnAssert p) ∨
    ∃ p b, c = .prstnRelease p b

/-- A command that no port carries and that is not of a reset line is an event of the part's own. -/
theorem exec_of_no_carrier {c : Instr} (h : c.carrier = none) (hreset : ¬Instr.IsReset c) :
    ∃ act, ∀ s, exec c s = .next (s.event act) := by
  cases c with
  | powerUp r a b => exact absurd (.inl ⟨r, a, b, rfl⟩) hreset
  | deviceReset => exact absurd (.inr (.inl rfl)) hreset
  | rstnRelease a b => exact absurd (.inr (.inr (.inl ⟨a, b, rfl⟩))) hreset
  | prstnAssert p => exact absurd (.inr (.inr (.inr (.inl ⟨p, rfl⟩)))) hreset
  | prstnRelease p b => exact absurd (.inr (.inr (.inr (.inr ⟨p, b, rfl⟩)))) hreset
  | periodExpiry c => exact ⟨_, fun s => rfl⟩
  | xtRisingEdge line => exact ⟨_, fun s => rfl⟩
  | grant => exact ⟨_, fun s => rfl⟩
  | settlingElapsed => exact ⟨_, fun s => rfl⟩
  | conversionComplete input => exact ⟨_, fun s => rfl⟩
  | claimLapse i => exact ⟨_, fun s => rfl⟩
  | staleExpiry i => exact ⟨_, fun s => rfl⟩
  | waitTimeout p => exact ⟨_, fun s => rfl⟩
  | _ => simp [Instr.carrier, requestParts] at h

namespace State

theorem transaction_held (s : State) (p : Port) (act : State → State)
    (h : s.rstAsserted = true ∨ (s.port p).prstAsserted = true) : s.transaction p act = s := if_pos h

theorem transaction_ignored (s : State) (p : Port) (act : State → State) (hr : s.rstAsserted = false)
    (hp : (s.port p).prstAsserted = false) (hi : (s.port p).selectIgnored = true) :
    s.transaction p act = s.setPort p { s.port p with selectIgnored := false, collecting := none } := by
  simp [transaction, hr, hp, hi]

theorem event_held (s : State) (act : State → State) (h : s.rstAsserted = true) : s.event act = s := if_pos h

theorem exec_collect_held (s : State) (p : Port) (part : CollectPart)
    (h : s.rstAsserted = true ∨ (s.port p).prstAsserted = true) : exec (.collect p part) s = .next s := if_pos h

theorem exec_collect_ignored (s : State) (p : Port) (n : Nat) (more : Bool) (hr : s.rstAsserted = false)
    (hp : (s.port p).prstAsserted = false) (hi : (s.port p).selectIgnored = true) :
    exec (.collect p ⟨n, more⟩) s = .next (s.setPort p { s.port p with
      selectIgnored := false, collecting := if more then some .ignored else none }) := by
  simp [exec, execCollect, hr, hp, hi]

/-- A part of a COLLECT that the port takes (R172). -/
theorem exec_collect (s : State) (p : Port) (n : Nat) (more : Bool) (hr : s.rstAsserted = false)
    (hp : (s.port p).prstAsserted = false) (hi : (s.port p).selectIgnored = false) :
    exec (.collect p ⟨n, more⟩) s =
      .next (if more then s.collectOn p n else (s.collectOn p n).endCollect p).updateAttention := by
  cases more
  · simp [exec, execCollect, hr, hp, hi]
  · simp [exec, execCollect, hr, hp, hi]

theorem setPort_collecting_self (s : State) (p : Port) (c : Option CollectPhase) (h : (s.port p).collecting = c) :
    s.setPort p { s.port p with collecting := c } = s := by
  subst h
  exact setPort_port_self s p

theorem exec_transaction_held {c : Instr} (s : State) (hr : s.rstAsserted = true) (hreset : ¬Instr.IsReset c) :
    exec c s = .next s := by
  cases hc : c.carrier with
  | none =>
    obtain ⟨act, h⟩ := exec_of_no_carrier hc hreset
    rw [h, event_held s act hr]
  | some p =>
    rcases exec_of_carrier hc with ⟨part, rfl⟩ | ⟨act, h⟩
    · exact exec_collect_held s p part (.inl hr)
    · rw [h, transaction_held s p act (.inl hr)]

end State

/-- Settles O3: each command but those of the reset lines is a transaction, a part of a COLLECT or an event, and each of
these looks at the lines first. -/
theorem heldLinesTakeNothing : Obligations.HeldLinesTakeNothing := by
  refine ⟨fun s hr => ⟨fun c h1 h2 h3 h4 h5 => ?_, fun hq => ?_⟩, fun s p c hc hr => ⟨fun hp => ?_, fun hp hi hmore => ?_⟩,
    fun s p n more hr hp => ⟨fun hi => ?_, fun hi hcollect => ?_⟩⟩
  · refine State.exec_transaction_held s hr ?_
    rintro (⟨r, h, l, e⟩ | e | ⟨a, b, e⟩ | ⟨p, e⟩ | ⟨p, b, e⟩)
    exacts [h1 _ _ _ e, h2 e, h3 _ _ e, h4 _ e, h5 _ _ e]
  · simp [step, hq, idle, hr]
  · rcases exec_of_carrier hc with ⟨part, rfl⟩ | ⟨act, h⟩
    · exact State.exec_collect_held s p part (.inr hp)
    · rw [h, State.transaction_held s p act (.inr hp)]
  · rcases exec_of_carrier hc with ⟨⟨n, more⟩, rfl⟩ | ⟨act, h⟩
    · cases more with
      | true => exact absurd rfl (hmore n)
      | false => exact State.exec_collect_ignored s p n false hr hp hi
    · rw [h, State.transaction_ignored s p act hr hp hi]
  · exact State.exec_collect_ignored s p n true hr hp hi
  · have hon : s.collectOn p n = s := by simp [State.collectOn, State.clockBytes, hcollect]
    rw [State.exec_collect s p n more hr hp hi, hon]
    cases more with
    | true => rw [if_pos rfl, if_pos rfl, State.setPort_collecting_self s p _ hcollect]
    | false => rfl

/-! ## The reset lines (R182, R183, R190, R191) -/

theorem atReset_afterReset (s : State) (rst h l : Bool) : (s.afterReset rst h l).AtReset rst h l := by
  refine ⟨fun i => ?_, rfl, fun c => afterReset_cls s rst h l c, rfl, fun i => afterReset_notice s rst h l i, rfl, rfl,
    fun a => afterReset_action s rst h l a, fun o => afterReset_output s rst h l o,
    fun p => afterReset_port s rst h l p, rfl⟩
  rw [afterReset_slot]
  exact ⟨rfl, rfl, rfl, rfl, rfl, rfl, rfl, rfl, rfl, rfl, rfl, rfl, rfl, rfl⟩

theorem exec_rstnRelease (s : State) (a b : Bool) (h : s.rstAsserted = true) : exec (.rstnRelease a b) s = .next
    (({ s with rstAsserted := false }.setPort .H { s.portH with selectIgnored := a }).setPort .L
      { s.portL with selectIgnored := b }) := by
  simp only [exec, execRstnRelease, if_pos h]
  rfl

theorem exec_rstnRelease_released (s : State) (a b : Bool) (h : s.rstAsserted = false) :
    exec (.rstnRelease a b) s = .next s := by
  simp [exec, execRstnRelease, h]

theorem exec_prstnRelease (s : State) (p : Port) (a : Bool) (h : (s.port p).prstAsserted = true) :
    exec (.prstnRelease p a) s = .next
      (s.setPort p { s.port p with prstAsserted := false, selectIgnored := a && !s.rstAsserted }) := by
  simp [exec, execPrstnRelease, h]

theorem exec_prstnRelease_released (s : State) (p : Port) (a : Bool) (h : (s.port p).prstAsserted = false) :
    exec (.prstnRelease p a) s = .next s := by
  simp [exec, execPrstnRelease, h]

/-- Settles O4. -/
theorem resetLinesSetTheResetValues : Obligations.ResetLinesSetTheResetValues :=
  ⟨fun s rst h l => ⟨⟨_, rfl, atReset_afterReset s rst h l, rfl, rfl, rfl⟩, _, rfl, atReset_afterReset s _ _ _, rfl, rfl, rfl⟩,
    fun s a b p => ⟨exec_rstnRelease s a b, exec_prstnRelease s p a, exec_rstnRelease_released s a b,
      exec_prstnRelease_released s p a⟩⟩

/-! ## Discarded frames (R164 to R166) -/

theorem byteSum_toNat (bs : List Byte) : (byteSum bs).toNat = (bs.map BitVec.toNat).sum % 256 := by
  induction bs with
  | nil => rfl
  | cons b bs ih =>
    rw [byteSum, List.foldr_cons, ← byteSum, BitVec.toNat_add, ih, List.map_cons, List.sum_cons]
    simp

theorem byteSum_eq_zero_iff (bs : List Byte) : byteSum bs = 0 ↔ (bs.map BitVec.toNat).sum % 256 = 0 := by
  rw [← byteSum_toNat, ← BitVec.toNat_inj]
  rfl

/-- The frame checks discard a frame for its length, its sum or its tag (R165, R166; no bytes: log entry 9). -/
theorem checkFrame_eq_none (bytes : List Byte) (h : (bytes.headD 0).toNat < 4 ∨ 64 < (bytes.headD 0).toNat ∨
    bytes.length < (bytes.headD 0).toNat ∨ ((bytes.take (bytes.headD 0).toNat).map BitVec.toNat).sum % 256 ≠ 0 ∨
    15 < (bytes.getD 1 0).toNat) : checkFrame bytes = none := by
  cases bytes with
  | nil => rfl
  | cons len rest =>
    simp only [List.headD_cons] at h
    simp only [checkFrame]
    split
    next => rfl
    next hlen =>
      split
      next => rfl
      next hsum =>
        rw [not_not, byteSum_eq_zero_iff] at hsum
        split
        next l tag kind more htake =>
          have htag : (len :: rest).getD 1 0 = tag := by
            have hget : ((len :: rest).take len.toNat)[1]? = some tag := by rw [htake]; rfl
            rw [List.getElem?_take, if_pos (by omega)] at hget
            simp [List.getD_eq_getElem?_getD, hget]
          rw [htag] at h
          exact dif_neg (by omega)
        next => rfl

namespace State

theorem countError_of_takes (s : State) (p : Port) (h : s.Takes p) : countError p s = .next
    (s.setPort p { s.port p with frameErrors := min 255 ((s.port p).frameErrors + 1) }).updateAttention := by
  rw [countError, transaction_of_takes s p _ h]
  rfl

end State

/-- Settles O5: neither byte begins a transaction, and the frame checks discard the frame. -/
theorem badBytesOnlyCount : Obligations.BadBytesOnlyCount := by
  intro s p h
  refine ⟨fun b h1 h2 => ?_, fun bytes hbytes => ?_⟩
  · have he : exec (.badCommandByte p b) s = countError p s := (if_neg h1).trans (if_neg h2)
    rw [he, s.countError_of_takes p h]
  · have he : exec (.frameDiscard p bytes) s = countError p s := by
      change takeSubmit p bytes s = _
      rw [takeSubmit, checkFrame_eq_none bytes hbytes]
    rw [he, s.countError_of_takes p h]

/-! ## Refusals (R167, R168) -/

/-- The commands that carry a frame with this tag and kind byte are its submission. -/
theorem exec_of_frame {c : Instr} {p : Port} {t : Tag} {kind : Byte}
    (h : (∃ args, c = .requestRefusal p t kind args) ∨ (∃ args, c = .badRequestFrame p t kind args) ∨
      ∃ k args, requestParts c = some (p, t, k, args) ∧ k.code = kind) :
    ∃ needs own, ∀ s, exec c s = .next (s.submit p t kind needs own) := by
  rcases h with ⟨args, rfl⟩ | ⟨args, rfl⟩ | ⟨k, args, hparts, rfl⟩
  · exact takeFrame_submit p t kind args
  · exact takeFrame_submit p t kind args
  · obtain ⟨own, -, hmeans⟩ := request_of_parts hparts
    exact ⟨_, own, fun s => (hmeans s).1⟩

/-- Settles O6: the port's checks of the tag come first, and a refusal writes the slots or the count alone. -/
theorem refusalsFillTheSlots : Obligations.RefusalsFillTheSlots := by
  intro s p t kind c htakes hframe hrefused
  obtain ⟨needs, own, hmeans⟩ := exec_of_frame hframe
  rw [hmeans]
  by_cases hopen : ∃ e ∈ (s.port p).openTags, e.tag = t
  · have hany : (s.port p).openTags.any (fun e => e.tag == t) = true := by simpa using hopen
    rw [State.submit_tag_in_use s p t kind needs own htakes hopen, hany]
    rfl
  · have hany : (s.port p).openTags.any (fun e => e.tag == t) = false := by simpa using hopen
    rw [State.submit_busy s p t kind needs own htakes (by simpa using hopen) (hrefused.resolve_left hopen), hany]
    rfl

/-! ## Answers of the port itself (R169) -/

/-- Arguments that are not the number of their kind spell no request (R169). -/
theorem decodeRequest_eq_none (p : Port) (t : Tag) (kind : Byte) (args : List Byte)
    (h : ∀ k : Kind, k.code = kind → args.length ≠ k.argCount) : decodeRequest p t kind args = none := by
  unfold decodeRequest
  cases hk : Kind.ofCode kind with
  | none => rfl
  | some k => simp only [if_neg (h k (Kind.code_of_ofCode hk))]

/-- Settles O7: the frame's form is looked at before the session, and the session before the owner. -/
theorem portAnswersBeforeTheOwner : Obligations.PortAnswersBeforeTheOwner := by
  refine ⟨fun s p t kind args hadmits hargs => ?_, fun s p t k args c hparts hk hadmits hs => ?_⟩
  · have he : exec (.badRequestFrame p t kind args) s = .next (s.submit p t kind false fun s => s.reply .badRequest) := by
      change takeFrame p t kind args s = _
      rw [takeFrame, decodeRequest_eq_none p t kind args hargs]
    rw [he, State.submit_of_admits _ _ _ _ _ _ hadmits, State.accept, if_neg (by simp), State.reply, State.giveReply,
      State.answerTag_openTag _ _ _ _ _ _ hadmits.2.1]
    rfl
  · obtain ⟨own, -, hmeans⟩ := request_of_parts hparts
    rw [(hmeans s).1, State.request_not_attached s p t k own hadmits hs hk]

end Sys2Proof.Machine
end

section
/-! SUPPORT. What is sent: response frames, quantities and the codes of the enumerations (R185, R186, R189). -/

namespace Sys2Proof.Machine

/-! ## Bytes and frames -/

theorem byte_toNat (n : Nat) : (byte n).toNat = n % 256 := by simp [byte]

theorem byteSum_cons (a : Byte) (as : List Byte) : byteSum (a :: as) = a + byteSum as := rfl

theorem byteSum_append (as bs : List Byte) : byteSum (as ++ bs) = byteSum as + byteSum bs := by
  induction as with
  | nil => simp [byteSum]
  | cons a as ih =>
    rw [List.cons_append, byteSum_cons, byteSum_cons, ih, BitVec.add_assoc]

/-- A check byte makes the sum 0 (R166, R185). -/
theorem byteSum_checked (body : List Byte) : byteSum (body ++ [0 - byteSum body]) = 0 := by
  rw [byteSum_append]
  simp [byteSum]

/-- The status byte is the result code with the refusal mark on top (R186). -/
theorem statusByte_toNat (refusal : Bool) (code : ResultCode) :
    (statusByte refusal code).toNat = code.code.toNat + if refusal then 128 else 0 := by
  cases refusal <;> cases code <;> rfl

theorem length_responseFrame (refusal : Bool) (a : Answer) : (responseFrame refusal a).length = a.data.length + 5 := by
  simp [responseFrame]

theorem bytes16_eq (w : Word16) : bytes16 w = [byte (w.toNat / 256), byte w.toNat] := by
  simp only [bytes16, byte, List.cons.injEq, and_true]
  constructor <;> apply BitVec.eq_of_toNat_eq <;> simp [Nat.shiftRight_eq_div_pow]

theorem bytes32_eq (w : Word32) :
    bytes32 w = [byte (w.toNat / 16777216), byte (w.toNat / 65536), byte (w.toNat / 256), byte w.toNat] := by
  simp only [bytes32, byte, List.cons.injEq, and_true]
  refine ⟨?_, ?_, ?_, ?_⟩ <;> apply BitVec.eq_of_toNat_eq <;> simp [Nat.shiftRight_eq_div_pow]

/-! ## Sets of bits (R189) -/

theorem getLsbD_of_low (b : Byte) (l : List Bool) (hl : l.length ≤ 8)
    (h : ∀ k : Fin 8, b.getLsbD k.val = l.getD k.val false) (k : Nat) : b.getLsbD k = l.getD k false := by
  by_cases hk : k < 8
  · exact h ⟨k, hk⟩
  · rw [BitVec.getLsbD_of_ge _ _ (Nat.le_of_not_lt hk), List.getD_eq_default _ _ (by omega)]

theorem triggers_bits (r : TriggerSet) (k : Nat) : r.code.getLsbD k = [r.lo, r.lolo, r.hi, r.hihi].getD k false := by
  refine getLsbD_of_low _ _ (by simp) ?_ k
  obtain ⟨lo, lolo, hi, hihi⟩ := r
  cases lo <;> cases lolo <;> cases hi <;> cases hihi <;> decide

theorem flags_bits (r : ActionRec) (k : Nat) :
    r.flagsCode.getLsbD k = [r.suppress, r.notifySpent, r.restore].getD k false := by
  refine getLsbD_of_low _ _ (by simp) ?_ k
  unfold ActionRec.flagsCode
  cases r.suppress <;> cases r.notifySpent <;> cases r.restore <;> decide

/-- Settles O10. -/
theorem responseFramesAreWhole : Obligations.ResponseFramesAreWhole := by
  refine ⟨fun refusal a hlen => ⟨length_responseFrame refusal a, ?_, ?_, fun d => statusByte_toNat refusal a.code, rfl⟩,
    byte_toNat, bytes16_eq, bytes32_eq, rfl, rfl, rfl, rfl, rfl, rfl, rfl, rfl, rfl, rfl, rfl, rfl, rfl, fun j => rfl, rfl,
    fun n => rfl, triggers_bits, flags_bits, fun a i => rfl⟩
  · change (byte (a.data.length + 5)).toNat = _
    rw [byte_toNat, Nat.mod_eq_of_lt (by omega)]
  · rw [← byteSum_eq_zero_iff]
    exact byteSum_checked _

end Sys2Proof.Machine
end

section
/-! SUPPORT. What is received: the frames of the requests and the configuration blocks read back as what they were written
from (R165, R166, R185, R187, R188). -/

namespace Sys2Proof.Machine

/-! ## Quantities -/

theorem word16_of_bytes (w : Word16) : w.extractLsb' 8 8 ++ w.extractLsb' 0 8 = w :=
  BitVec.extractLsb'_append_extractLsb' (w := 8) (len := 8)

theorem word32_of_bytes (w : Word32) :
    (w.extractLsb' 24 8 ++ w.extractLsb' 16 8 : Word16) ++ (w.extractLsb' 8 8 ++ w.extractLsb' 0 8 : Word16) = w := by
  rw [BitVec.extractLsb'_append_extractLsb'_eq_extractLsb' (by rfl),
    BitVec.extractLsb'_append_extractLsb'_eq_extractLsb' (by rfl)]
  exact BitVec.extractLsb'_append_extractLsb' (w := 16) (len := 16)

theorem word64_of_words (w : BitVec 64) : w.extractLsb' 32 32 ++ w.extractLsb' 0 32 = w :=
  BitVec.extractLsb'_append_extractLsb' (w := 32) (len := 32)

theorem word64At_area (a b c d : Byte) (w : BitVec 64) : word64At ([a, b, c, d] ++ bytes64 w) 4 = w := by
  have hhigh : word32At ([a, b, c, d] ++ bytes64 w) 4 = w.extractLsb' 32 32 := word32_of_bytes _
  have hlow : word32At ([a, b, c, d] ++ bytes64 w) 8 = w.extractLsb' 0 32 := word32_of_bytes _
  rw [word64At, hhigh, hlow, word64_of_words]

theorem blockOfBytes_bytesOfBlock (b : ConfigBlock) : blockOfBytes (bytesOfBlock b) = b := by
  obtain ⟨key, channel, gain, flags, offset, span, lolo, lo, hi, hihi, deadband, confirm, stale, severity, policy, route⟩ := b
  simp only [blockOfBytes, bytesOfBlock, bytes32, bytes16, word32At, word16At, byteAt, List.cons_append, List.nil_append,
    List.getD_cons_zero, List.getD_cons_succ, Nat.reduceAdd, word16_of_bytes, ConfigBlock.mk.injEq, true_and, and_true]
  exact ⟨word32_of_bytes key, word32_of_bytes offset, word32_of_bytes span, word32_of_bytes lolo, word32_of_bytes lo,
    word32_of_bytes hi, word32_of_bytes hihi⟩

/-! ## Requests (R187) -/

/-- The arguments that a request's frame carries spell that request, and are the number that its kind carries. -/
theorem requestOf_of_parts {i : Instr} {p : Port} {t : Tag} {k : Kind} {args : List Byte}
    (h : requestParts i = some (p, t, k, args)) : requestOf p t k args = i ∧ args.length = k.argCount := by
  cases i with
  | pointDefine q u b =>
    cases h
    exact ⟨congrArg _ (blockOfBytes_bytesOfBlock b), rfl⟩
  | pointFind q u key =>
    cases h
    exact ⟨congrArg _ (word32_of_bytes key), rfl⟩
  | editSet q u a b f x v =>
    cases h
    exact ⟨congrArg _ (word64At_area a b f x v), rfl⟩
  | classConfig q u c x n =>
    cases h
    exact ⟨congrArg _ (word16_of_bytes n), rfl⟩
  | noticeWait q u n =>
    cases h
    exact ⟨congrArg _ (word16_of_bytes n), rfl⟩
  | actionCreate q u m o d b f =>
    cases h
    exact ⟨congrArg (fun d => Instr.actionCreate p t m o d b f) (word16_of_bytes d), rfl⟩
  | outputWrite q u c v =>
    cases h
    exact ⟨congrArg _ (word16_of_bytes v), rfl⟩
  | outputFallback q u c x v =>
    cases h
    exact ⟨congrArg _ (word16_of_bytes v), rfl⟩
  | _ => cases h <;> exact ⟨rfl, rfl⟩

theorem argCount_le (k : Kind) : k.argCount ≤ 39 := by cases k <;> decide

/-! ## Frames (R165, R166) -/

/-- A frame of arguments that fit passes the frame checks, whatever is clocked in after it. -/
theorem checkFrame_frameBytes (t : Tag) (kind : Byte) (args extra : List Byte) (h : args.length ≤ 60) :
    checkFrame (frameBytes t kind args ++ extra) = some (t, kind, args) := by
  have hlen : (BitVec.ofNat 8 (args.length + 4)).toNat = args.length + 4 := by
    rw [BitVec.toNat_ofNat]
    exact Nat.mod_eq_of_lt (by omega)
  have htag : (BitVec.ofNat 8 t.val).toNat = t.val := by
    rw [BitVec.toNat_ofNat]
    exact Nat.mod_eq_of_lt (by omega)
  have hframe : (frameBytes t kind args).length = args.length + 4 := by simp [frameBytes]
  have htake : (frameBytes t kind args ++ extra).take (args.length + 4) = frameBytes t kind args := by
    rw [← hframe, List.take_left]
  have hsum : byteSum (frameBytes t kind args) = 0 := byteSum_checked _
  have hhead : frameBytes t kind args ++ extra = BitVec.ofNat 8 (args.length + 4) ::
      (frameBytes t kind args ++ extra).tail := rfl
  rw [hhead]
  simp only [checkFrame]
  rw [← hhead, hlen, htake, if_neg (by simp only [List.length_append, hframe]; omega), if_neg (by simp [hsum])]
  have hparts : frameBytes t kind args = BitVec.ofNat 8 (args.length + 4) :: BitVec.ofNat 8 t.val :: kind ::
      (args ++ [0 - byteSum (BitVec.ofNat 8 (args.length + 4) :: BitVec.ofNat 8 t.val :: kind :: args)]) := rfl
  rw [hparts]
  simp only [htag, t.isLt, dite_true, List.dropLast_concat]

/-- Settles O52: the frame passes the checks, its kind byte names its kind, and its arguments spell the request. -/
theorem framesReadBackAsTheirRequests : Obligations.FramesReadBackAsTheirRequests := by
  intro i p frame extra hp hframe
  unfold encodeFrame at hframe
  cases hparts : requestParts i with
  | none => rw [hparts] at hframe; cases hframe
  | some x =>
    obtain ⟨q, t, k, args⟩ := x
    rw [hparts] at hframe
    cases hframe
    obtain rfl := carrier_of_parts hparts hp
    obtain ⟨hrequest, hcount⟩ := requestOf_of_parts hparts
    have := argCount_le k
    simp only [decodeSubmit, checkFrame_frameBytes t k.code args extra (by omega), decodeRequest, Kind.ofCode_code,
      if_pos hcount, hrequest]

end Sys2Proof.Machine
end

section
/-! SUPPORT. Configuration blocks and the configurations they carry (R5, R185, R187, R188). -/

namespace Sys2Proof.Machine

/-! ## Fields out of their ranges (R5) -/

theorem confirmOf_eq_none (b : Byte) : confirmOf b = none ↔ b = 0 ∨ 8 < b.toNat := by
  have hzero : b = 0 ↔ b.toNat = 0 := by rw [← BitVec.toNat_inj]; rfl
  rw [confirmOf_eq, hzero]
  simp only [ite_eq_right_iff, reduceCtorEq, imp_false]
  omega

theorem staleFieldOf_eq_none (present : Bool) (w : Word16) :
    staleFieldOf present w = none ↔ present = true ∧ (w.toNat < 10 ∨ 60000 < w.toNat) := by
  cases present
  · simp [staleFieldOf]
  · simp only [staleFieldOf, if_true, Option.map_eq_none_iff, staleOf_eq, ite_eq_right_iff, reduceCtorEq, imp_false,
      true_and]
    omega

/-- A block carries no configuration where one of its fields is out of range. -/
theorem configOf_eq_none (b : ConfigBlock) : configOf b = none ↔ channelOf b.channel = none ∨ gainOf b.gain = none ∨
    confirmOf b.confirm = none ∨ staleFieldOf (b.flags.getLsbD 5) b.stale = none ∨ severityOf b.severity = none ∨
    policyOf b.policy = none ∨ routeOf b.route = none := by
  unfold configOf
  generalize channelOf b.channel = channel
  generalize gainOf b.gain = gain
  generalize confirmOf b.confirm = confirm
  generalize staleFieldOf (b.flags.getLsbD 5) b.stale = stale
  generalize severityOf b.severity = severity
  generalize policyOf b.policy = policy
  generalize routeOf b.route = route
  cases channel with
  | none => simp
  | some _ => cases gain with
    | none => simp
    | some _ => cases confirm with
      | none => simp
      | some _ => cases stale with
        | none => simp
        | some _ => cases severity with
          | none => simp
          | some _ => cases policy with
            | none => simp
            | some _ => cases route with
              | none => simp
              | some _ => simp

/-! ## Fields within their ranges -/

theorem channelOf_val {b : Byte} {c : ChannelNo} (h : channelOf b = some c) : c.val = b.toNat := by
  unfold channelOf at h
  split at h
  next => cases h; rfl
  next => cases h

theorem severityOf_val {b : Byte} {v : Severity} (h : severityOf b = some v) : v.val = b.toNat := by
  unfold severityOf at h
  split at h
  next => cases h; rfl
  next => cases h

theorem gainOf_some : ∀ {b : Byte} {g : Gain}, gainOf b = some g → g.code = b := by
  intro b g h
  unfold gainOf at h
  split_ifs at h <;> cases h <;> exact Eq.symm ‹_›

theorem policyOf_some {b : Byte} {v : Policy} (h : policyOf b = some v) : v.code = b := by
  unfold policyOf at h
  split_ifs at h <;> cases h <;> exact Eq.symm ‹_›

theorem routeOf_some {b : Byte} {v : Route} (h : routeOf b = some v) : v.code = b := by
  unfold routeOf at h
  split_ifs at h <;> cases h <;> exact Eq.symm ‹_›

theorem confirmOf_val {b : Byte} {n : Nat} (h : confirmOf b = some n) : n = b.toNat := by
  rw [confirmOf_eq] at h
  split_ifs at h
  cases h
  rfl

theorem staleFieldOf_some {present : Bool} {w : Word16} {v : Option Nat} (h : staleFieldOf present w = some v) :
    v = if present then some w.toNat else none := by
  cases present
  · cases h; rfl
  · simp only [staleFieldOf, if_true, Option.map_eq_some_iff, staleOf_eq] at h
    obtain ⟨n, hn, rfl⟩ := h
    split_ifs at hn
    cases hn
    rfl

/-! ## The flags byte (R188) -/

/-- A sum of powers of two has the bits it is the sum of. -/
theorem byte_of_bits : ∀ a b c d e f g h : Bool, ∀ k : Fin 8,
    (byte ((if a then 1 else 0) + (if b then 2 else 0) + (if c then 4 else 0) + (if d then 8 else 0) +
      (if e then 16 else 0) + (if f then 32 else 0) + (if g then 64 else 0) + (if h then 128 else 0))).getLsbD k.val =
      [a, b, c, d, e, f, g, h].getD k.val false := by
  decide +kernel

theorem configFlags_bits (c : PointConfig) (k : Fin 8) : (configFlags c).getLsbD k.val =
    [c.scale.isSome, c.lolo.isSome, c.lo.isSome, c.hi.isSome, c.hihi.isSome, c.staleInterval.isSome, c.notifyClear,
      c.notifyQuality].getD k.val false := byte_of_bits ..

/-! ## The block of a configuration (R188) -/

/-- The block that a configuration is sent in, in which an absent field is 0. -/
def blockOf (key : Word32) (c : PointConfig) : ConfigBlock where
  key := key
  channel := byte c.channel.val
  gain := c.gain.code
  flags := configFlags c
  offset := (c.scale.map Scale.offset).getD 0
  span := (c.scale.map Scale.span).getD 0
  lolo := c.lolo.getD 0
  lo := c.lo.getD 0
  hi := c.hi.getD 0
  hihi := c.hihi.getD 0
  deadband := c.deadband
  confirm := byte c.confirm
  stale := BitVec.ofNat 16 (c.staleInterval.getD 0)
  severity := byte c.severity.val
  policy := c.policy.code
  route := c.route.code

theorem bytesOfBlock_blockOf (key : Word32) (c : PointConfig) :
    bytesOfBlock (blockOf key c) = bytes32 key ++ configBytes c := by
  simp only [bytesOfBlock, blockOf, configBytes, optWord32, List.append_assoc]

theorem presentOf_isSome {α : Type} (v : Option α) (d : α) : presentOf v.isSome (v.getD d) = v := by
  cases v <;> rfl

theorem confirmOf_byte (n : Nat) (h : 1 ≤ n ∧ n ≤ 8) : confirmOf (byte n) = some n := by
  have hn : (byte n).toNat = n := by rw [byte_toNat, Nat.mod_eq_of_lt (by omega)]
  rw [confirmOf_eq, hn, if_pos h]

theorem staleFieldOf_isSome (v : Option Nat) (h : ∀ ms ∈ v, 10 ≤ ms ∧ ms ≤ 60000) :
    staleFieldOf v.isSome (BitVec.ofNat 16 (v.getD 0)) = some v := by
  cases v with
  | none => rfl
  | some ms =>
    obtain ⟨hlow, hhigh⟩ := h ms rfl
    have hms : (BitVec.ofNat 16 ms).toNat = ms := by rw [BitVec.toNat_ofNat, Nat.mod_eq_of_lt (by omega)]
    simp [staleFieldOf, staleOf_eq, hms, hlow, hhigh]

theorem configOf_blockOf (key : Word32) (c : PointConfig) (h : c.InRange) : configOf (blockOf key c) = some c := by
  obtain ⟨hconfirm, hstale⟩ := h
  have b0 : (configFlags c).getLsbD 0 = c.scale.isSome := configFlags_bits c 0
  have b1 : (configFlags c).getLsbD 1 = c.lolo.isSome := configFlags_bits c 1
  have b2 : (configFlags c).getLsbD 2 = c.lo.isSome := configFlags_bits c 2
  have b3 : (configFlags c).getLsbD 3 = c.hi.isSome := configFlags_bits c 3
  have b4 : (configFlags c).getLsbD 4 = c.hihi.isSome := configFlags_bits c 4
  have b5 : (configFlags c).getLsbD 5 = c.staleInterval.isSome := configFlags_bits c 5
  have b6 : (configFlags c).getLsbD 6 = c.notifyClear := configFlags_bits c 6
  have b7 : (configFlags c).getLsbD 7 = c.notifyQuality := configFlags_bits c 7
  have hscale : presentOf c.scale.isSome
      { offset := (c.scale.map Scale.offset).getD 0, span := (c.scale.map Scale.span).getD 0 : Scale } = c.scale := by
    cases c.scale <;> rfl
  simp only [configOf, blockOf, channelOf_byte, gainOf_code, confirmOf_byte _ hconfirm, b0, b1, b2, b3, b4, b5, b6,
    b7, staleFieldOf_isSome _ hstale, severityOf_byte, policyOf_code, routeOf_code, hscale, presentOf_isSome,
    Option.bind_eq_bind, Option.bind_some]
  rfl

/-- Settles O15. -/
theorem blocksCarryConfigurations : Obligations.BlocksCarryConfigurations := by
  refine ⟨fun b c h => ?_, fun b => ?_, fun c hc key => ⟨blockOf key c, bytesOfBlock_blockOf key c, configOf_blockOf key c hc⟩,
    fun c => ?_⟩
  · simp only [configOf, Option.bind_eq_bind, Option.bind_eq_some_iff] at h
    obtain ⟨_, h1, _, h2, _, h3, _, h4, _, h5, _, h6, _, h7, h⟩ := h
    cases h
    exact ⟨channelOf_val h1, gainOf_some h2, rfl, rfl, rfl, rfl, rfl, rfl, confirmOf_val h3, staleFieldOf_some h4,
      severityOf_val h5, policyOf_some h6, routeOf_some h7, rfl, rfl⟩
  · rw [configOf_eq_none, channelOf_eq_none, gainOf_eq_none, confirmOf_eq_none, staleFieldOf_eq_none, severityOf_eq_none,
      policyOf_eq_none, routeOf_eq_none, or_assoc]
    exact Iff.rfl
  · cases h : c.scale with
    | none => simp [configBytes, configFlags, optWord32, h]; rfl
    | some sc => simp [configBytes, configFlags, optWord32, h]

end Sys2Proof.Machine
end

section
/-! SUPPORT. The evaluator and the raises of notices (R94 to R98, R111 to R114). -/

namespace Sys2Proof.Machine

/-! ## The candidate (R94, R96) -/

theorem candidate_of_raw_eq (c : PointConfig) (x : Condition) (v : Word32) (h : rawCandidate c v = x) :
    candidate c x v = x := by
  simp only [candidate, h, ite_self]

theorem candidate_of_moreSevere (c : PointConfig) (x : Condition) (v : Word32)
    (h : moreSevere x (rawCandidate c v) = true) : candidate c x v = rawCandidate c v :=
  if_pos (.inr h)

theorem moreSevere_iff (x y : Condition) : moreSevere x y = true ↔ (x = .hi ∧ y = .hihi) ∨ (x = .lo ∧ y = .lolo) := by
  cases x <;> cases y <;> simp [moreSevere]

/-- Settles O37: the candidate is the raw one from NORMAL and on a more severe move (`moreSevere_iff`), and is otherwise
judged by the deadband; where the raw candidate is the condition, every branch gives the condition. -/
theorem candidateNeedsTheDeadband : Obligations.CandidateNeedsTheDeadband := by
  unfold Obligations.CandidateNeedsTheDeadband
  intro c v
  refine ⟨if_pos (.inl rfl), fun h => ?_, fun h => ?_, fun x hx hhi hlo => ?_, fun _ x _ h => candidate_of_raw_eq c x v h⟩
  · rw [candidate_of_moreSevere c .hi v (by rw [h]; rfl), h]
  · rw [candidate_of_moreSevere c .lo v (by rw [h]; rfl), h]
  · have hsevere : ¬(x = .normal ∨ moreSevere x (rawCandidate c v) = true) := by
      rw [moreSevere_iff]
      rintro (h | h | h)
      exacts [hx h, hhi h, hlo h]
    rw [candidate, if_neg hsevere]

namespace State

/-! ## Confirmation (R97, R98) -/

/-- Of the changed point's record, a condition change writes the condition and at most the link. -/
theorem changeCondition_slot_self (s : State) (i : SlotNo) (x : Condition) (l : Option ActionNo) :
    { (s.changeCondition i x).slot i with link := l } = { s.slot i with condition := x, link := l } := by
  obtain ⟨k, h⟩ := (changeCondition_points s i x).2 i
  rw [h, if_pos rfl]

end State

open State in
/-- Settles O38: the three branches of the confirmation machine; what a change leaves of the point's own record is
`changeCondition_slot_self`. -/
theorem confirmationCountsSamples : Obligations.ConfirmationCountsSamples := by
  unfold Obligations.ConfirmationCountsSamples
  intro s i x n cleared
  refine ⟨fun hx => if_pos hx, fun hx hn => ?_, fun hx hn => ?_⟩
  · rw [confirm, if_neg hx, if_neg (by exact hn)]
    rfl
  · have hconfirm : s.confirm i x = cleared.changeCondition i x := by
      rw [confirm, if_neg hx, if_pos (by exact hn)]
    refine ⟨hconfirm, ?_⟩
    rw [hconfirm, changeCondition_slot_self]
    simp only [cleared, slot_setSlot_self]

/-! ## Raises (R111 to R114) -/

theorem Notice.hold_eq (n : Notice) (cause : Cause) (x : Condition) (sev : Severity) : n.hold cause x sev =
    { n with followOn := some {
      cause := cause, condition := x
      severity := match n.followOn with
        | none => sev
        | some f => max f.severity sev } } := by
  unfold Notice.hold
  cases n.followOn <;> rfl

open State in
/-- Settles O41: a raise finds no notice, a PENDING one or a DELIVERED one. -/
theorem raiseMakesFoldsOrHolds : Obligations.RaiseMakesFoldsOrHolds := by
  unfold Obligations.RaiseMakesFoldsOrHolds
  intro s i cause x sev
  refine ⟨fun hnone => raise_of_none s i cause x hnone, fun n hn hpending => raise_of_pending s i cause x n hn hpending,
    fun n p hn hdelivered => ?_⟩
  exact (raise_of_delivered s i cause x n p hn hdelivered).trans
    (congrArg (fun m => s.setNotice i (some m)) (Notice.hold_eq n cause x sev))

/-! ## Drives and restore offers (R144 to R148) -/

theorem driven_eq (o : OutputChannel) (a : ActionNo) (r : ActionRec) (i : SlotNo) : o.driven a r i = { o with
    value := r.drive, lastWriter := .action a i
    saved :=
      if r.restore then
        (if o.saved ≠ none ∧ (∃ j, o.lastWriter = .action a j) then o.saved else some o.value)
      else none } := by
  have hrun : (o.saved.isSome && o.lastWriter.isAction a) = true ↔ o.saved ≠ none ∧ ∃ j, o.lastWriter = .action a j := by
    rw [Bool.and_eq_true, isAction_iff, Option.isSome_iff_ne_none]
  simp only [OutputChannel.driven, hrun]

open State in
/-- Settles O49: an invocation of an unpinned channel is a drive and then the use of one unit of budget, which leaves some
(`useBudget_left`) or none (`useBudget_spent`); a restore offer has its three cases. -/
theorem drivesSaveAndRestoresUndo : Obligations.DrivesSaveAndRestoresUndo := by
  unfold Obligations.DrivesSaveAndRestoresUndo
  refine ⟨fun s a i hpin => ?_, fun s a i => ⟨fun v => offerRestore_restores s a i v, fun v => offerRestore_pinned s a i v,
    offerRestore_nothing s a i⟩⟩
  obtain ⟨-, -, -, -, -, hclasses, -, hnotices, -⟩ := invoke_same s a i
  have hdrives : (s.invoke a i).1 =
      (s.setOutput (s.action a).output ((s.output (s.action a).output).driven a (s.action a) i)).useBudget a := by
    rw [invoke_drives s a i hpin]
  refine ⟨?_, fun u hu => ?_, fun hleft => ?_, fun hspent => ⟨?_, fun j => ?_⟩, fun b hb => ?_, hnotices, hclasses⟩
  · rw [hdrives, useBudget_output, output_setOutput_self, driven_eq]
  · rw [hdrives, useBudget_output, output_setOutput_ne _ _ _ _ (Ne.symm hu)]
  · rw [hdrives, useBudget_left _ _ (by exact hleft)]
    exact ⟨action_setAction_self .., rfl⟩
  · rw [hdrives, useBudget_spent _ _ (by exact hspent)]
    exact action_setAction_self ..
  · rw [hdrives, useBudget_spent _ _ (by exact hspent), setAction_slot, clearLinks_slot]
    rfl
  · rw [hdrives, useBudget_action_ne _ _ _ (Ne.symm hb), setOutput_action]

end Sys2Proof.Machine
end

section
/-! SUPPORT. The effects of a condition change, the six steps of an applied sample and the expiry of a stale timer (R89 to
R105). -/

namespace Sys2Proof.Machine
namespace State

/-! ## Entry into an abnormal condition (R100, R101) -/

theorem changeCondition_abnormal (s : State) (i : SlotNo) {x : Condition} (hx : x ≠ .normal) :
    s.changeCondition i x = (s.setSlot i { s.slot i with condition := x }).enterCondition i x := by
  cases x with
  | normal => exact absurd rfl hx
  | lo => rfl
  | lolo => rfl
  | hi => rfl
  | hihi => rfl

/-- An entry that invokes no action raises ENTERED alone (R100). -/
theorem enterCondition_no_invocation (s : State) (i : SlotNo) (x : Condition)
    (h : ∀ a, (s.slot i).link = some a → ¬((s.action a).state = .armed ∧ (s.action a).triggers.has x = true)) :
    s.enterCondition i x = s.raise i .entered x := by
  have hinvoke : s.invokeOnEntry i x = (s, .notSuppressed, none) := by
    unfold invokeOnEntry
    cases hlink : (s.slot i).link with
    | none => rfl
    | some a => exact if_neg (h a hlink)
  rw [enterCondition, hinvoke]
  rfl

section Invocation
variable (s : State) (i : SlotNo) (x : Condition) (a : ActionNo)

/-- An entry that invokes the linked action (R100). -/
theorem enterCondition_invokes (hlink : (s.slot i).link = some a) (harmed : (s.action a).state = .armed)
    (hhas : (s.action a).triggers.has x = true) : s.enterCondition i x =
      (s.invoke a i).1.entryRaises i x (s.invoke a i).2.1 (s.invoke a i).2.2 := by
  have hinvoke : s.invokeOnEntry i x = s.invoke a i := by
    rw [invokeOnEntry, hlink]
    exact if_pos ⟨harmed, hhas⟩
  rw [enterCondition, hinvoke]

/-- A blocked invocation raises ENTERED and then ACTION_BLOCKED (R101, R147). -/
theorem entryRaises_blocked (hpin : (s.output (s.action a).output).pin ≠ none) :
    (s.invoke a i).1.entryRaises i x (s.invoke a i).2.1 (s.invoke a i).2.2 =
      (s.raise i .entered x).raise i .actionBlocked x := by
  rw [invoke_blocked s a i hpin]
  rfl

/-- An invocation that drives raises ENTERED unless the action suppresses it, and ACTION_SPENT where the drive spends an
action that notifies it (R101, R146). -/
theorem entryRaises_drives (hpin : (s.output (s.action a).output).pin = none) :
    (s.invoke a i).1.entryRaises i x (s.invoke a i).2.1 (s.invoke a i).2.2 =
      (let driven := (s.setOutput (s.action a).output
          ((s.output (s.action a).output).driven a (s.action a) i)).useBudget a
       let told := if (s.action a).suppress then driven else driven.raise i .entered x
       if (s.action a).budget ≤ 1 ∧ (s.action a).notifySpent = true then told.raise i .actionSpent x else told) := by
  have hsuppress : (if (s.action a).suppress = true then InvokeOutcome.suppressed else .notSuppressed) = .suppressed ↔
      (s.action a).suppress = true := by simp
  rw [invoke_drives s a i hpin]
  by_cases hspent : (s.action a).budget ≤ 1 ∧ (s.action a).notifySpent = true
  · simp only [entryRaises, hsuppress, if_pos hspent]
  · simp only [entryRaises, hsuppress, if_neg hspent]

end Invocation

/-! ## Return to NORMAL (R102, R103, R116) -/

theorem followWithdraw_pending (s : State) (i : SlotNo) (n : Notice) (hn : s.notice i = some n)
    (hstate : n.state = .pending) (hcause : n.cause = .entered) : s.followWithdraw i = (s.setNotice i none, true) := by
  simp [followWithdraw, hn, hstate, hcause]

theorem followWithdraw_followOn (s : State) (i : SlotNo) (n : Notice) (p : Port) (f : FollowOn)
    (hn : s.notice i = some n) (hstate : n.state = .delivered p) (hf : n.followOn = some f) (hcause : f.cause = .entered) :
    s.followWithdraw i = (s.setNotice i (some { n with followOn := none }), true) := by
  simp [followWithdraw, hn, hstate, hf, hcause]

/-- Where no notice and no follow-on of cause ENTERED stands, nothing is withdrawn. -/
theorem followWithdraw_nothing (s : State) (i : SlotNo)
    (h : s.notice i = none ∨ ∃ n, s.notice i = some n ∧ ((n.state = .pending ∧ n.cause ≠ .entered) ∨
      (n.state ≠ .pending ∧ ∀ f, n.followOn = some f → f.cause ≠ .entered))) : s.followWithdraw i = (s, false) := by
  unfold followWithdraw
  rcases h with hnone | ⟨n, hn, ⟨hpending, hcause⟩ | ⟨hdelivered, hfollow⟩⟩
  · rw [hnone]
  · simp only [hn, hpending, if_neg hcause]
  · rw [hn]
    cases hstate : n.state with
    | pending => exact absurd hstate hdelivered
    | delivered p =>
      cases hf : n.followOn with
      | none => simp only [hstate, hf]
      | some f => simp only [hstate, hf, if_neg (hfollow f hf)]

/-- A withdrawal under FOLLOW is the whole notice work of a return (R102). -/
theorem returnNotices_withdraws (s u : State) (i : SlotNo) (hpolicy : (s.slot i).cfg.policy = .follow)
    (h : s.followWithdraw i = (u, true)) : s.returnNotices i = u := by
  simp [returnNotices, hpolicy, h]

/-- Without a withdrawal a return raises CLEARED where notify clear is yes (R102). -/
theorem returnNotices_clears (s : State) (i : SlotNo)
    (h : (s.slot i).cfg.policy = .latched ∨ s.followWithdraw i = (s, false)) :
    s.returnNotices i = if (s.slot i).cfg.notifyClear then s.raise i .cleared .normal else s := by
  have hnothing : (if (s.slot i).cfg.policy = .follow then s.followWithdraw i else (s, false)) = (s, false) := by
    rcases h with hlatched | h
    · simp [hlatched]
    · rw [h, ite_self]
  rw [returnNotices, hnothing]
  rfl

end State

open State in
/-- Settles O39: an entry invokes the linked action or does not (`enterCondition_invokes`, `enterCondition_no_invocation`),
and a return withdraws or does not (`returnNotices_withdraws`, `returnNotices_clears`); then comes the restore offer. -/
theorem conditionChangesHaveTheirEffects : Obligations.ConditionChangesHaveTheirEffects := by
  unfold Obligations.ConditionChangesHaveTheirEffects
  constructor
  · intro s i x hx u
    refine ⟨fun h => ?_, fun a hlink harmed hhas => ⟨fun hpin => ?_, fun hpin => ?_⟩⟩
    · rw [changeCondition_abnormal s i hx]
      refine enterCondition_no_invocation u i x fun a ha ⟨harmed, hhas⟩ => ?_
      simp only [u, slot_setSlot_self, setSlot_action] at ha harmed hhas
      rcases h with hnone | ⟨b, hb, hnot⟩
      · simp [hnone] at ha
      · obtain rfl : b = a := by simpa [hb] using ha
        rcases hnot with hnot | hnot
        exacts [hnot harmed, by simp [hnot] at hhas]
    · rw [changeCondition_abnormal s i hx, enterCondition_invokes u i x a (by simpa [u] using hlink) harmed hhas,
        entryRaises_blocked u i x a hpin]
    · rw [changeCondition_abnormal s i hx, enterCondition_invokes u i x a (by simpa [u] using hlink) harmed hhas,
        entryRaises_drives u i x a hpin]
      rfl
  · intro s i u offered
    have hreturn : s.changeCondition i .normal = offered (u.returnNotices i) := by
      rw [changeCondition_normal, returnToNormal, slot_setSlot_self] <;> rfl
    have hslot : u.slot i = { s.slot i with condition := .normal } := slot_setSlot_self ..
    refine ⟨fun n hpolicy hn hstate hcause => ?_, fun n p f hpolicy hn hstate hf hcause => ?_, fun h => ?_⟩
    · rw [hreturn, returnNotices_withdraws u _ i (by rw [hslot]; exact hpolicy)
        (followWithdraw_pending u i n hn hstate hcause)]
    · rw [hreturn, returnNotices_withdraws u _ i (by rw [hslot]; exact hpolicy)
        (followWithdraw_followOn u i n p f hn hstate hf hcause)]
    · rw [hreturn, returnNotices_clears u i (by rw [hslot]; exact h.imp_right (followWithdraw_nothing u i)), hslot]

namespace State

/-! ## Events of the part's own (R173, R191) -/

theorem event_runs (s : State) (act : State → State) (h : s.rstAsserted = false) :
    s.event act = (act s).updateAttention := by
  rw [event, if_neg (by rw [h]; exact Bool.false_ne_true)]

/-! ## Quality notices and stale timers (R92, R105, R117) -/

theorem staleWithdraw_eq (s : State) (i : SlotNo) : s.staleWithdraw i =
    if ∃ n, s.notice i = some n ∧ n.state = .pending ∧ n.cause = .stale then s.setNotice i none else s := by
  unfold staleWithdraw
  cases s.notice i with
  | none => simp
  | some n => simp

/-- Confirmation writes no stale timer. -/
theorem confirm_staleTimer (s : State) (i : SlotNo) (x : Condition) :
    ((s.confirm i x).slot i).staleTimer = (s.slot i).staleTimer := by
  obtain ⟨l, cond, cand, n, h, -⟩ := (confirm_points s i x).2.2
  rw [h]

end State

open State in
/-- Settles O40: the quality's notices are a withdrawal and then a raise, the six steps are `applySample_eq`, and the expiry
of a stale timer is one event. -/
theorem staleTimersAndQualityNotices : Obligations.StaleTimersAndQualityNotices := by
  unfold Obligations.StaleTimersAndQualityNotices
  refine ⟨?_, ?_, fun s i due hrst hdue => ?_⟩
  · intro s i before w
    have hw : (if before = .stale ∧ (s.slot i).cfg.policy = .follow then s.staleWithdraw i else s) = w := by
      simp only [w, staleWithdraw_eq, ite_and]
    have hslot : w.slot i = s.slot i := by
      rw [← hw]
      obtain ⟨n, h⟩ := staleWithdraw_frame s i
      rw [h]
      split <;> rfl
    simp only [qualityNotices, hw, hslot]
  · intro s i raw timer value
    refine ⟨applySample_eq s i raw, ?_⟩
    rw [applySample_eq, confirm_staleTimer, (qualityNotices_points _ _ _).2, slot_setSlot_self]
    rfl
  · have hexec : exec (.staleExpiry i) s = execStaleExpiry i s := rfl
    rw [hexec, execStaleExpiry, event_runs s _ hrst]
    simp only [hdue]
    rfl

end Sys2Proof.Machine
end

section
/-! SUPPORT. NOTICE.FETCH, NOTICE.WAIT and NOTICE.ACK (R122 to R130). -/

namespace Sys2Proof.Machine

theorem exec_noticeFetch (s : State) (p : Port) (t : Tag) :
    exec (.noticeFetch p t) s = .next (s.request p t .noticeFetch (State.ownFetch p)) := rfl

theorem exec_noticeWait (s : State) (p : Port) (t : Tag) (timeout : Word16) :
    exec (.noticeWait p t timeout) s = .next (s.request p t .noticeWait (State.ownWait p t timeout)) := rfl

theorem exec_noticeAck (s : State) (p : Port) (t : Tag) (slot gen : Byte) :
    exec (.noticeAck p t slot gen) s = .next (s.request p t .noticeAck (State.ownAck p slot gen)) := rfl

namespace State

/-- A port whose request finds its tag not open has, under the law of the waiting requests, no wait of that tag. -/
theorem serveWaits_openTag_of_ready {s : State} {p : Port} {t : Tag} (k : Byte) (hready : s.Ready p t)
    (hwaiting : WaitingLaw s) : (s.openTag p t k).serveWaits = s.serveWaits.openTag p t k :=
  serveWaits_openTag s p t k (waits_tag_ne s p t hwaiting hready.1.2.1)

/-- A request whose owner's effect ends with the service of the waits: the answer comes behind those of the waits. -/
theorem exec_of_serveWaits (k : Kind) {s : State} (u : State) {p : Port} {t : Tag} {c : Instr}
    {owner : State → State × Reply} {code : ResultCode} {data : List Byte} (hready : s.Ready p t)
    (hwaiting : WaitingLaw s) (hexec : exec c s = .next (s.request p t k owner)) (hwaits : u.waits = s.waits)
    (hport : u.port p = s.port p)
    (howner : owner (s.openTag p t k.code) = ((u.openTag p t k.code).serveWaits, .done code data)) :
    exec c s = .next (u.serveWaits.answered p t k.code code data) := by
  have hfresh : ∀ e ∈ (u.port p).openTags, e.tag ≠ t := by rw [hport]; exact hready.1.2.1
  have hnone : ∀ w ∈ u.waits, (w.port, w.tag) ≠ (p, t) := by rw [hwaits]; exact waits_tag_ne s p t hwaiting hready.1.2.1
  exact exec_of_answer k u.serveWaits hready.1 (.inr hready.2) hexec
    (by rw [howner, serveWaits_openTag u p t k.code hnone]) (serveWaits_tag_ne u p t hfresh)

/-- A request that waits: its owner's effect and its open tag (R169). -/
theorem exec_of_waits (k : Kind) {s : State} (s' : State) {p : Port} {t : Tag} {c : Instr}
    {owner : State → State × Reply} (hready : s.Ready p t) (hexec : exec c s = .next (s.request p t k owner))
    (howner : owner (s.openTag p t k.code) = (s'.openTag p t k.code, .waits)) :
    exec c s = .next (s'.accepted p t k.code) := by
  rw [hexec, request_waits s s' p t k owner hready howner]

/-- Where a port has one wait at most, the wait found for it is that one. -/
theorem find?_port_eq_some (ws : List WaitRec) (w : WaitRec) (hnodup : (ws.map WaitRec.port).Nodup) (hw : w ∈ ws) :
    (ws.find? fun v => v.port == w.port) = some w := by
  cases hfind : ws.find? fun v => v.port == w.port with
  | none => simpa using List.find?_eq_none.1 hfind w hw
  | some v =>
    have hport : v.port = w.port := by simpa using List.find?_some hfind
    rw [List.inj_on_of_nodup_map hnodup (List.mem_of_find?_eq_some hfind) hw hport]

/-! ## NOTICE.FETCH and NOTICE.WAIT (R122 to R124) -/

theorem ownFetch_none (s : State) (p : Port) (h : ∀ i, s.deliverable p i = none) : ownFetch p s = s.reply .none := by
  rw [ownFetch, (fetch_eq_none s p).2 h]

/-- The choice that a request's own fetch makes, beside its open tag. -/
theorem fetch_openTag_of_deliverable (s : State) (p : Port) (t : Tag) (k : Byte) (h : ∃ i, s.deliverable p i ≠ none) :
    ∃ i n, s.IsBest p i n ∧ (s.openTag p t k).fetch p =
      some ((s.setNotice i (some { n with state := .delivered p })).openTag p t k, noticeBytes i n) := by
  obtain ⟨i, n, hbest, -, hfetch⟩ := fetch_of_deliverable s p h
  exact ⟨i, n, hbest, by rw [fetch_openTag, hfetch]; rfl⟩

theorem ownWait_zero (s : State) (p : Port) (t : Tag) : ownWait p t 0 s = s.reply .badArgument := rfl

section Wait
variable (s : State) (p : Port) (t : Tag) (n : Word16) (hn : n ≠ 0)
include hn

theorem ownWait_busy (h : ∃ w ∈ s.waits, w.port = p) : ownWait p t n s = s.reply .busy := by
  have hany : (s.waits.any fun w => w.port == p) = true := by simpa using h
  rw [ownWait, if_neg hn, if_pos hany]

/-- A port that does not wait fetches, or waits where nothing is deliverable to it. -/
theorem ownWait_of_not_waiting (h : ∀ w ∈ s.waits, w.port ≠ p) : ownWait p t n s =
    match s.fetch p with
    | some (s', data) => (s', .done .ok data)
    | none => (s.setWaits (s.waits ++ [{ port := p, tag := t, due := s.now + n.toNat * 1000 }]), .waits) := by
  have hany : ¬(s.waits.any fun w => w.port == p) = true := by simpa using h
  rw [ownWait, if_neg hn, if_neg hany]
  rfl

end Wait

end State

open State in
/-- Settles O43: a fetch finds nothing deliverable, or delivers a best notice (`fetch_openTag_of_deliverable`). -/
theorem fetchDeliversTheBest : Obligations.FetchDeliversTheBest := by
  unfold Obligations.FetchDeliversTheBest
  intro s p t hready
  refine ⟨fun hnone => ?_, fun hsome => ?_⟩
  · exact exec_of_reply .noticeFetch hready (exec_noticeFetch s p t) (ownFetch_none _ p (by simpa using hnone))
  · obtain ⟨i, n, hbest, hfetch⟩ := fetch_openTag_of_deliverable s p t Kind.noticeFetch.code hsome
    refine ⟨i, n, hbest, exec_of_effect .noticeFetch _ hready (exec_noticeFetch s p t) ?_ (setNotice_port ..)⟩
    rw [ownFetch, hfetch]
    rfl

open State in
/-- Settles O44: the tests of R124 in their order; the timeout of a wait drops its record and answers the tag. -/
theorem waitFetchesWaitsOrTimesOut : Obligations.WaitFetchesWaitsOrTimesOut := by
  unfold Obligations.WaitFetchesWaitsOrTimesOut
  refine ⟨fun s p t hready => ⟨?_, fun n hn => ⟨fun hbusy => ?_, fun hidle => ⟨fun hnone => ?_, fun hsome => ?_⟩⟩⟩,
    fun s w k hrst hw hnodup hwaits => ?_⟩
  · exact exec_of_reply .noticeWait hready (exec_noticeWait s p t 0) (ownWait_zero ..)
  · exact exec_of_reply .noticeWait hready (exec_noticeWait s p t n)
      (ownWait_busy _ p t n hn (by rw [openTag_waits]; exact hbusy))
  · refine exec_of_waits .noticeWait _ hready (exec_noticeWait s p t n) ?_
    rw [ownWait_of_not_waiting _ p t n hn (by rw [openTag_waits]; exact hidle),
      (fetch_eq_none _ p).2 (by simpa using hnone)]
    simp only [openTag_waits, openTag_now, openTag_setWaits]
  · obtain ⟨i, m, hbest, hfetch⟩ := fetch_openTag_of_deliverable s p t Kind.noticeWait.code hsome
    refine ⟨i, m, hbest, exec_of_effect .noticeWait _ hready (exec_noticeWait s p t n) ?_ (setNotice_port ..)⟩
    rw [ownWait_of_not_waiting _ p t n hn (by rw [openTag_waits]; exact hidle), hfetch]
  · have hexec : exec (.waitTimeout w.port) s = execWaitTimeout w.port s := rfl
    rw [hexec, execWaitTimeout, event_runs s _ hrst]
    simp only [find?_port_eq_some s.waits w hnodup hw]
    rw [answerTag_of_waits _ _ _ k]
    · rfl
    · exact hwaits

/-! ## NOTICE.ACK (R129, R130) -/

open State in
/-- Settles O46: the notice is not delivered to the port, has no follow-on, or is made PENDING anew from it. -/
theorem ackRemovesOrRenews : Obligations.AckRemovesOrRenews := by
  unfold Obligations.AckRemovesOrRenews
  intro s p t i g hready hnames
  have hgood (k : Byte) (go : SlotNo → State × Reply) :
      (s.openTag p t k).withRef (byte i.val) g go = go i := withRef_good _ i g go (by simpa using hnames)
  refine ⟨fun hnot => ?_, fun n hn hdelivered hnone => ?_, fun n f hn hdelivered hf hwaiting => ?_⟩
  · refine exec_of_reply .noticeAck hready (exec_noticeAck s p t _ g) ?_
    rw [ownAck, hgood, openTag_notice]
    cases hn : s.notice i with
    | none => rfl
    | some n => exact if_neg (hnot n hn)
  · refine exec_of_effect .noticeAck _ hready (exec_noticeAck s p t _ g) ?_ (setNotice_port ..)
    rw [ownAck, hgood, openTag_notice, hn]
    simp only [if_pos hdelivered, acknowledge, hnone, openTag_setNotice]
  · refine exec_of_serveWaits .noticeAck (s.renewNotice i n f) hready hwaiting (exec_noticeAck s p t _ g) rfl
      (by simp [renewNotice]) ?_
    rw [ownAck, hgood, openTag_notice, hn]
    simp only [if_pos hdelivered, acknowledge, hf, renewNotice, openTag_countRaise, openTag_setNotice, openTag_raiseSeq]

end Sys2Proof.Machine
end

section
/-! SUPPORT. Editing under claim: what EDIT.OPEN, EDIT.SET and EDIT.DROP do with the claim of a point, and the fields an
EDIT.SET can name (R28, R29, R31, R39, R187). -/

namespace Sys2Proof.Machine

theorem exec_editOpen (s : State) (p : Port) (t : Tag) (slot gen : Byte) :
    exec (.editOpen p t slot gen) s = .next (s.request p t .editOpen (State.ownOpen p slot gen)) := rfl

theorem exec_editSet (s : State) (p : Port) (t : Tag) (slot gen field presence : Byte) (area : BitVec 64) :
    exec (.editSet p t slot gen field presence area) s =
      .next (s.request p t .editSet (State.ownEditSet p slot gen field presence area)) := rfl

theorem exec_editDrop (s : State) (p : Port) (t : Tag) (slot gen : Byte) :
    exec (.editDrop p t slot gen) s = .next (s.request p t .editDrop (State.ownDrop p slot gen)) := rfl

namespace State

/-- A good reference beside a request's open tag. -/
theorem withRef_openTag {s : State} {i : SlotNo} {g : Generation} (hnames : s.names i g = true) (p : Port) (t : Tag)
    (k : Byte) (go : SlotNo → State × Reply) : (s.openTag p t k).withRef (byte i.val) g go = go i :=
  withRef_good _ i g go (by rw [openTag_names]; exact hnames)

theorem claimDue_eq (s : State) (p : Port) : s.claimDue p = s.now + (s.port p).timeoutSteps * 10000 := by
  rw [claimDue, Nat.mul_assoc]
  rfl

/-- The expiry that a claim of an accepted request's port gets. -/
theorem openTag_claimDue (s : State) (p q : Port) (t : Tag) (k : Byte) :
    (s.openTag p t k).claimDue q = s.now + (s.port q).timeoutSteps * 10000 := by
  rw [claimDue_eq, openTag_now, openTag_timeoutSteps]

theorem ownClaim_eq_none (s : State) (p : Port) (i : SlotNo) :
    s.ownClaim p i = none ↔ (s.slot i).claim.map Claim.owner ≠ some p := by
  rw [Option.eq_none_iff_forall_ne_some]
  simp [ownClaim_eq_some]

end State

theorem portCode_other (p q : Port) (h : q ≠ p) : portCode (some q) = if p = .H then 2 else 1 := by
  cases p <;> cases q <;> first | exact absurd rfl h | rfl

open State in
/-- Settles O19: the claim is none, this port's or the other's; the lapse is one event. -/
theorem claimsOpenDropAndLapse : Obligations.ClaimsOpenDropAndLapse := by
  unfold Obligations.ClaimsOpenDropAndLapse
  refine ⟨fun s p t i g hready hnames => ⟨fun hnone => ?_, fun c hc howner => ?_, fun c hc howner => ?_⟩,
    fun s i c hc => ⟨fun p t g hready hnames howner => ?_, fun hrst => ?_⟩⟩
  · refine exec_of_effect .editOpen _ hready (exec_editOpen s p t _ g) ?_ (setSlot_port ..)
    rw [ownOpen, withRef_openTag hnames, openTag_slot, hnone]
    simp only [openTag_claimDue, openTag_setSlot]
  · refine exec_of_effect .editOpen _ hready (exec_editOpen s p t _ g) ?_ (setSlot_port ..)
    rw [ownOpen, withRef_openTag hnames, openTag_slot, hc]
    subst howner
    simp only [if_true, openTag_claimDue, openTag_setSlot]
  · refine exec_of_reply .editOpen hready (exec_editOpen s p t _ g) ?_
    rw [ownOpen, withRef_openTag hnames, openTag_slot, hc]
    simp only [if_neg howner, portCode_other p c.owner howner]
  · refine exec_of_effect .editDrop _ hready (exec_editDrop s p t _ g) ?_ (setSlot_port ..)
    rw [ownDrop, withRef_openTag hnames, openTag_ownClaim, ownClaim_of_owner s p i c hc howner]
    simp only [openTag_slot, openTag_setSlot]
  · have hexec : exec (.claimLapse i) s = execClaimLapse i s := rfl
    rw [hexec, execClaimLapse, event_runs s _ hrst]
    simp only [hc]
    rfl

/-! ## The fields of an EDIT.SET (R31, R187) -/

/-- The edit of a field whose value is one byte at the head of the area. -/
theorem map_areaByte {α : Type} {read : Byte → Option α} {b : Byte} {v : α} (h : read b = some v)
    (edit : α → PointConfig → PointConfig) (r : BitVec 56) :
    (read (areaByte (b ++ r))).map edit = some (edit v) := by
  rw [areaByte_append, h]
  rfl

open State in
/-- An EDIT.SET of the port that holds the claim: the named edit of the staged copy, with the expiry set again (R31). -/
theorem exec_editSet_of_edit {s : State} {p : Port} {t : Tag} {i : SlotNo} {g : Generation} {c : Claim}
    (hready : s.Ready p t) (hnames : s.names i g = true) (hc : (s.slot i).claim = some c) (howner : c.owner = p)
    {field presence : Byte} {area : BitVec 64} {edit : PointConfig → PointConfig}
    (hedit : fieldEdit field presence area = some edit) :
    exec (.editSet p t (byte i.val) g field presence area) s = .next
      ((s.setSlot i { s.slot i with claim := some {
        owner := p, staged := edit c.staged
        due := s.now + (s.port p).timeoutSteps * 10000 } }).answered p t 0x21 .ok []) := by
  refine exec_of_effect .editSet _ hready (exec_editSet s p t _ g field presence area) ?_ (setSlot_port ..)
  simp only [ownEditSet, hedit, withRef_openTag hnames, openTag_ownClaim, ownClaim_of_owner s p i c hc howner,
    openTag_slot, openTag_claimDue, openTag_setSlot]
  rw [howner]

/-- Settles O20: each field's edit reads its value from the head of the area (`map_areaByte`), and the owner writes it
into the staged copy (`exec_editSet_of_edit`). -/
theorem setStagesTheNamedField : Obligations.SetStagesTheNamedField := by
  unfold Obligations.SetStagesTheNamedField
  intro s p t i g c hready hnames hc howner sets
  have edits (field presence : Byte) {area : BitVec 64} {edit : PointConfig → PointConfig}
      (hedit : fieldEdit field presence area = some edit) : sets field presence area (edit c.staged) :=
    exec_editSet_of_edit hready hnames hc howner hedit
  have words (field : Byte) {w r : Word32} (edit : Word32 → PointConfig → PointConfig)
      (hedit : fieldEdit field 1 (w ++ r) = some (edit (areaWord32 (w ++ r)))) : sets field 1 (w ++ r) (edit w c.staged) := by
    rw [areaWord32_append] at hedit
    exact edits field 1 hedit
  refine ⟨fun ch r => edits 1 1 (map_areaByte (channelOf_byte ch) _ r), fun gn r => edits 2 1 (map_areaByte (gainOf_code gn) _ r),
    fun o sp => ?_, fun l r => words 4 (fun w k => { k with lolo := some w }) rfl,
    fun l r => words 5 (fun w k => { k with lo := some w }) rfl, fun l r => words 6 (fun w k => { k with hi := some w }) rfl,
    fun l r => words 7 (fun w k => { k with hihi := some w }) rfl, fun d r => ?_, fun n r h1 h8 => ?_, fun ms r h10 hmax => ?_,
    fun v r => edits 11 1 (map_areaByte (severityOf_byte v) _ r), fun v r => edits 12 1 (map_areaByte (policyOf_code v) _ r),
    fun v r => edits 13 1 (map_areaByte (routeOf_code v) _ r), fun v r => edits 14 1 (map_areaByte (yesNoOf_yesNoByte v) _ r),
    fun v r => edits 15 1 (map_areaByte (yesNoOf_yesNoByte v) _ r),
    fun a => edits 3 0 rfl, fun a => edits 4 0 rfl, fun a => edits 5 0 rfl, fun a => edits 6 0 rfl, fun a => edits 7 0 rfl,
    fun a => edits 10 0 rfl⟩
  · have hscale := edits 3 1 (area := o ++ sp) rfl
    rw [areaWord32_append, areaSpan_append] at hscale
    exact hscale
  · have hdeadband := edits 8 1 (area := d ++ r) rfl
    rw [areaWord16_append] at hdeadband
    exact hdeadband
  · exact edits 9 1 (map_areaByte (read := confirmOf) (by rw [confirmOf_eq, if_pos ⟨h1, h8⟩]) _ r)
  · have hstale : staleOf (areaWord16 (ms ++ r)) = some ms.toNat := by
      rw [areaWord16_append, staleOf_eq, if_pos ⟨h10, hmax⟩]
    exact edits 10 1 (edit := fun k => { k with staleInterval := some ms.toNat }) (congrArg (Option.map _) hstale)

end Sys2Proof.Machine
end

section
/-! SUPPORT. The refusals of EDIT.SET, EDIT.COMMIT and EDIT.DROP, and what a commit leaves (R31, R33 to R37). -/

namespace Sys2Proof.Machine

/-! ## Fields and values out of range (R31, R187) -/

theorem absentEdit_eq_none : ∀ field : Byte,
    absentEdit field = none ↔ (field.toNat ≤ 2 ∨ 8 ≤ field.toNat) ∧ field ≠ 10 := by decide

theorem byte_eq_ofNat {b : Byte} {n : Nat} (h : b.toNat = n) : b = BitVec.ofNat 8 n := by
  rw [← h, BitVec.ofNat_toNat, BitVec.setWidth_eq]

theorem byte_toNat_eq_zero (b : Byte) : b.toNat = 0 ↔ b = 0 := by
  rw [← BitVec.toNat_inj]
  rfl

theorem staleOf_eq_none (w : Word16) : staleOf w = none ↔ w.toNat < 10 ∨ 60000 < w.toNat := by
  rw [staleOf_eq]
  simp only [ite_eq_right_iff, reduceCtorEq, imp_false]
  omega

/-- The values at the head of an area that the field of a code cannot take. -/
def AreaOutOfRange (field : Byte) (area : BitVec 64) : Prop :=
  (field = 1 ∧ 23 < (areaByte area).toNat) ∨ (field = 2 ∧ 3 < (areaByte area).toNat) ∨
    (field = 9 ∧ ((areaByte area).toNat = 0 ∨ 8 < (areaByte area).toNat)) ∨
    (field = 10 ∧ ((areaWord16 area).toNat < 10 ∨ 60000 < (areaWord16 area).toNat)) ∨
    (field = 11 ∧ 7 < (areaByte area).toNat) ∨ (field = 12 ∧ 1 < (areaByte area).toNat) ∨
    (field = 13 ∧ 2 < (areaByte area).toNat) ∨ ((field = 14 ∨ field = 15) ∧ 1 < (areaByte area).toNat)

/-- A present field is refused where its code names none or its value is out of range. -/
theorem presentEdit_eq_none (field : Byte) (area : BitVec 64) :
    presentEdit field area = none ↔ field = 0 ∨ 15 < field.toNat ∨ AreaOutOfRange field area := by
  simp only [AreaOutOfRange, ← BitVec.toNat_inj, BitVec.ofNat_eq_ofNat, BitVec.toNat_ofNat]
  unfold presentEdit
  split
  case h_16 =>
    simp only [true_iff]
    generalize field.toNat = n at *
    rcases Nat.lt_or_ge 15 n with hn | hn
    · exact .inr (.inl hn)
    · interval_cases n
      · exact .inl rfl
      all_goals contradiction
  all_goals
    simp only [Option.map_eq_none_iff, reduceCtorEq, false_iff, channelOf_eq_none, gainOf_eq_none, confirmOf_eq_none,
      staleOf_eq_none, severityOf_eq_none, policyOf_eq_none, routeOf_eq_none, yesNoOf_eq_none, ← BitVec.toNat_inj,
      BitVec.ofNat_eq_ofNat, BitVec.toNat_ofNat]
    omega

theorem presence_cases : ∀ presence : Byte, presence = 0 ∨ presence = 1 ∨ 1 < presence.toNat := by decide

theorem fieldEdit_eq_none (field presence : Byte) (area : BitVec 64) : fieldEdit field presence area = none ↔
    field = 0 ∨ 15 < field.toNat ∨ 1 < presence.toNat ∨
      (presence = 0 ∧ (field.toNat ≤ 2 ∨ 8 ≤ field.toNat) ∧ field ≠ 10) ∨
      (presence = 1 ∧ AreaOutOfRange field area) := by
  rcases presence_cases presence with rfl | rfl | hpresence
  · have habsent : fieldEdit field 0 area = absentEdit field := rfl
    have h10 : field = 10 ↔ field.toNat = 10 := by rw [← BitVec.toNat_inj]; rfl
    have h1 : ¬(0 : Byte) = 1 := by decide
    have hsmall : ¬1 < (0 : Byte).toNat := by decide
    rw [habsent, absentEdit_eq_none, ne_eq, h10, ← byte_toNat_eq_zero field]
    simp only [h1, hsmall, false_and, or_false, false_or, true_and]
    omega
  · have hpresent : fieldEdit field 1 area = presentEdit field area := rfl
    have h0 : ¬(1 : Byte) = 0 := by decide
    have h1 : ¬1 < (1 : Byte).toNat := by decide
    simp only [hpresent, presentEdit_eq_none, h0, h1, true_and, false_and, false_or]
  · have hnone : fieldEdit field presence area = none := by rw [fieldEdit, (yesNoOf_eq_none presence).2 hpresence]
    simp only [hnone, hpresence, true_iff]
    exact .inr (.inr (.inl trivial))

namespace State

theorem ownEditSet_badArgument (s : State) (p : Port) (slot g field presence : Byte) (area : BitVec 64)
    (h : fieldEdit field presence area = none) : ownEditSet p slot g field presence area s = s.reply .badArgument := by
  rw [ownEditSet, h]

section NoClaim
variable {s : State} {p : Port} {i : SlotNo} {g : Generation} (hnames : s.names i g = true)
  (hclaim : (s.slot i).claim.map Claim.owner ≠ some p)
include hnames hclaim

theorem ownEditSet_noClaim (t : Tag) (k field presence : Byte) (area : BitVec 64)
    (h : fieldEdit field presence area ≠ none) :
    ownEditSet p (byte i.val) g field presence area (s.openTag p t k) = (s.openTag p t k).reply .noClaim := by
  obtain ⟨edit, hedit⟩ := Option.ne_none_iff_exists'.1 h
  simp only [ownEditSet, hedit, withRef_openTag hnames, openTag_ownClaim, (ownClaim_eq_none s p i).2 hclaim]

theorem ownCommit_noClaim (t : Tag) (k : Byte) :
    ownCommit p (byte i.val) g (s.openTag p t k) = (s.openTag p t k).reply .noClaim := by
  simp only [ownCommit, withRef_openTag hnames, openTag_ownClaim, (ownClaim_eq_none s p i).2 hclaim]

theorem ownDrop_noClaim (t : Tag) (k : Byte) :
    ownDrop p (byte i.val) g (s.openTag p t k) = (s.openTag p t k).reply .noClaim := by
  simp only [ownDrop, withRef_openTag hnames, openTag_ownClaim, (ownClaim_eq_none s p i).2 hclaim]

end NoClaim

end State

open State in
/-- Settles O21: the fields and values out of range are `fieldEdit_eq_none`, and none of the three owners finds a claim of
the port. -/
theorem editsNeedARangeAndAClaim : Obligations.EditsNeedARangeAndAClaim := by
  unfold Obligations.EditsNeedARangeAndAClaim
  intro s p t hready
  refine ⟨fieldEdit_eq_none, fun slot g field presence area hnone => ?_, fun i g hnames hclaim =>
    ⟨fun field presence area hsome => ?_, ?_, ?_⟩⟩
  · exact exec_of_reply .editSet hready (exec_editSet s p t slot g field presence area)
      (ownEditSet_badArgument _ p slot g field presence area hnone)
  · exact exec_of_reply .editSet hready (exec_editSet s p t _ g field presence area)
      (ownEditSet_noClaim hnames hclaim t _ field presence area hsome)
  · exact exec_of_reply .editCommit hready (exec_editCommit s p t _ g) (ownCommit_noClaim hnames hclaim t _)
  · exact exec_of_reply .editDrop hready (exec_editDrop s p t _ g) (ownDrop_noClaim hnames hclaim t _)

/-! ## What a commit leaves (R34 to R37) -/

namespace State

theorem committedSlot_openTag (s : State) (p : Port) (t : Tag) (k : Byte) (i : SlotNo) (staged : PointConfig) :
    (s.openTag p t k).committedSlot i staged = s.committedSlot i staged := by
  have hlisted : (s.openTag p t k).listedActive i = s.listedActive i :=
    listedActive_congr i (by cases p <;> rfl) (by rw [openTag_slot])
  simp only [committedSlot, committedTimer, hlisted, openTag_slot, openTag_now]

/-- A commit beside a request's open tag. -/
theorem commit_openTag (s : State) (p : Port) (t : Tag) (k : Byte) (i : SlotNo) (staged : PointConfig) :
    (s.openTag p t k).commit i staged = (s.commit i staged).openTag p t k := by
  rw [commit_eq, commit_eq, committedSlot_openTag]
  simp only [openTag_slot, openTag_setSlot, changeCondition_openTag]
  split
  next => rfl
  next => rfl

/-- Of the points, a change to NORMAL writes the condition of its own alone (R102, R103). -/
theorem changeCondition_normal_slot (s : State) (i j : SlotNo) : (s.changeCondition i .normal).slot j =
    if j = i then { s.slot i with condition := .normal } else s.slot j := by
  rw [changeCondition_normal, (returnToNormal_points _ i).2, slot_setSlot]
  simp only [eq_comm]

theorem raise_actions (s : State) (i : SlotNo) (cause : Cause) (x : Condition) :
    (s.raise i cause x).actions = s.actions := by
  obtain ⟨n, q, h, -⟩ := raise_frame s i cause x
  rw [h]
  rfl

theorem returnNotices_actions (s : State) (i : SlotNo) : (s.returnNotices i).actions = s.actions := by
  have hwithdrawn : (if (s.slot i).cfg.policy = .follow then s.followWithdraw i else (s, false)).1.actions = s.actions := by
    obtain ⟨n, h⟩ := followWithdraw_frame s i
    split
    next => rw [h]; rfl
    next => rfl
  unfold returnNotices
  simp only
  generalize (if (s.slot i).cfg.policy = .follow then s.followWithdraw i else (s, false)) = r at hwithdrawn ⊢
  split
  next => exact hwithdrawn
  next =>
    split
    next => rw [raise_actions, hwithdrawn]
    next => exact hwithdrawn

theorem changeCondition_normal_actions (s : State) (i : SlotNo) : (s.changeCondition i .normal).actions = s.actions := by
  rw [changeCondition_normal]
  refine Eq.trans ?_ (returnNotices_actions (s.setSlot i { s.slot i with condition := .normal }) i)
  unfold returnToNormal
  split
  next => rfl
  next a _ =>
    obtain ⟨r, h⟩ := offerRestore_frame ((s.setSlot i { s.slot i with condition := .normal }).returnNotices i) a i
    rw [h]
    rfl

/-- What a commit leaves of the points: the point's configuration, claim, pending state and timer are the commit's, and its
condition is NORMAL where its limit is absent (R34 to R36). -/
theorem commit_slot (s : State) (i j : SlotNo) (staged : PointConfig) : (s.commit i staged).slot j =
    if j = i then { s.committedSlot i staged with
      condition := if limitOf staged (s.slot i).condition = none then .normal else (s.slot i).condition }
    else s.slot j := by
  rw [commit_eq]
  split
  next h =>
    rw [changeCondition_normal_slot, slot_setSlot_self, if_pos h.2, slot_setSlot]
    split
    next => rfl
    next hne => rw [if_neg (Ne.symm hne)]
  next h =>
    have hcond : (if limitOf staged (s.slot i).condition = none then Condition.normal else (s.slot i).condition) =
        (s.slot i).condition := by
      split
      next hnone => by_contra hne; exact h ⟨Ne.symm hne, hnone⟩
      next => rfl
    rw [hcond, slot_setSlot]
    simp only [eq_comm]
    rfl

theorem commit_actions (s : State) (i : SlotNo) (staged : PointConfig) : (s.commit i staged).actions = s.actions := by
  rw [commit_eq]
  split
  next => rw [changeCondition_normal_actions]; rfl
  next => rfl

/-- Where the condition stays, a commit is one write of the point's record. -/
theorem commit_of_limit (s : State) (i : SlotNo) (staged : PointConfig)
    (h : limitOf staged (s.slot i).condition ≠ none ∨ (s.slot i).condition = .normal) :
    s.commit i staged = s.setSlot i (s.committedSlot i staged) := by
  rw [commit_eq, if_neg]
  rintro ⟨hne, hnone⟩
  rcases h with h | h
  exacts [h hnone, hne h]

theorem ownCommit_commits (s : State) (p : Port) (i : SlotNo) (g : Generation) (c : Claim) (hnames : s.names i g = true)
    (hclaim : s.ownClaim p i = some c) (hlimits : limitCheck c.staged = true) :
    ownCommit p (byte i.val) g s = ((s.commit i c.staged).serveWaits, .done .ok [byte i.val, g]) := by
  have hgen : (s.slot i).gen = g := ((names_iff s i g).1 hnames).2
  rw [ownCommit, withRef_good s i g _ hnames, hclaim]
  simp only [hlimits, Bool.true_eq_false, if_false, hgen]

end State

open State in
/-- Settles O22: a commit is `commit_eq`; what it leaves of the points and the action records are `commit_slot` and
`commit_actions`, of the other blocks `commit_points`, and the service of the waits writes none of them. -/
theorem commitWritesTheStagedCopy : Obligations.CommitWritesTheStagedCopy := by
  unfold Obligations.CommitWritesTheStagedCopy
  intro s p t i g c hready hnames hc howner hlimits hwaiting timer written u
  have hu : u = (s.commit i c.staged).serveWaits := by rw [commit_eq]; rfl
  obtain ⟨-, hnow, -, -, hkeys, hclasses, hfrontEnd, hwaits, hportH, hportL⟩ := commit_points s i c.staged
  obtain ⟨-, unow, -, -, uslots, ukeys, uclasses, ufrontEnd, useq, uactions, uoutputs⟩ :=
    serveWaits_same (s.commit i c.staged)
  rw [hu]
  refine ⟨?_, fun j => ?_, ukeys.trans hkeys, uclasses.trans hclasses, ufrontEnd.trans hfrontEnd,
    uactions.trans (commit_actions ..), unow.trans hnow, fun h => ?_⟩
  · refine exec_of_serveWaits .editCommit _ hready hwaiting (exec_editCommit s p t _ g) hwaits
      (by cases p <;> assumption) ?_
    rw [ownCommit_commits _ p i g c (by simpa using hnames) (by simpa using ownClaim_of_owner s p i c hc howner) hlimits,
      commit_openTag]
  · have hslot : (s.commit i c.staged).serveWaits.slot j = (s.commit i c.staged).slot j := by simp only [slot, uslots]
    rw [hslot, commit_slot]
    rfl
  · have hcommit := commit_of_limit s i c.staged h
    refine ⟨uoutputs.trans (by rw [hcommit]; rfl), useq.trans (by rw [hcommit]; rfl), fun hnone => ?_⟩
    have hidle : (s.commit i c.staged).serveWaits = s.commit i c.staged :=
      serveWaits_idle _ (by rw [hwaits, hnone]; simp)
    rw [hidle, hcommit]
    exact ⟨rfl, rfl, fun q => setSlot_port ..⟩

end Sys2Proof.Machine
end

section
/-! SUPPORT. The reference check of the requests that name a point, and the requests of the point table (R4, R10 to
R16). -/

namespace Sys2Proof.Machine

namespace State

/-! ## The reference check (R4) -/

/-- An owner that begins with the reference check of a slot and a generation, once its other operands are in range. -/
def ChecksRef (owner : State → State × Reply) (slot gen : Byte) : Prop :=
  ∀ u : State, ∃ go, owner u = u.withRef slot gen go

theorem names_eq_false (s : State) (i : SlotNo) (g : Generation) :
    s.names i g = false ↔ (s.slot i).state = .free ∨ (s.slot i).gen ≠ g := by
  rw [← Bool.not_eq_true, names_iff]
  cases h : (s.slot i).state <;> simp

/-- What such a request answers for a slot out of range and for a stale reference. -/
theorem ChecksRef.answers {owner : State → State × Reply} {slot gen : Byte} (h : ChecksRef owner slot gen) (k : Kind)
    {s : State} {p : Port} {t : Tag} {c : Instr} (hready : s.Ready p t)
    (hexec : exec c s = .next (s.request p t k owner)) :
    (128 ≤ slot.toNat → exec c s = .next (s.answered p t k.code .badArgument [])) ∧
      ∀ i : SlotNo, slot = byte i.val → ((s.slot i).state = .free ∨ (s.slot i).gen ≠ gen) →
        exec c s = .next (s.answered p t k.code .staleRef []) := by
  obtain ⟨go, hgo⟩ := h (s.openTag p t k.code)
  refine ⟨fun hbad => exec_of_reply k hready hexec (hgo.trans (withRef_bad _ slot gen go hbad)), fun i hi hstale => ?_⟩
  subst hi
  exact exec_of_reply k hready hexec
    (hgo.trans (withRef_stale _ i gen go (by rw [openTag_names]; exact (names_eq_false s i gen).2 hstale)))

theorem checksRef_ownEditSet (p : Port) (slot gen field presence : Byte) (area : BitVec 64)
    (h : fieldEdit field presence area ≠ none) : ChecksRef (ownEditSet p slot gen field presence area) slot gen := by
  obtain ⟨edit, hedit⟩ := Option.ne_none_iff_exists'.1 h
  intro u
  simp only [ownEditSet, hedit]
  exact ⟨_, rfl⟩

theorem checksRef_ownInsert (c : ClassNo) (slot gen position : Byte) (h : position.toNat ≤ 48) :
    ChecksRef (ownInsert (byte c.val) slot gen position) slot gen := by
  intro u
  simp only [ownInsert, classOf_byte, if_neg (show ¬Config.listCapacity < position.toNat from Nat.not_lt.2 h)]
  exact ⟨_, rfl⟩

theorem checksRef_ownRemove (c : ClassNo) (slot gen : Byte) : ChecksRef (ownRemove (byte c.val) slot gen) slot gen := by
  intro u
  simp only [ownRemove, classOf_byte]
  exact ⟨_, rfl⟩

theorem checksRef_ownLink (p : Port) (a : ActionNo) (slot gen : Byte) :
    ChecksRef (ownLink p (byte a.val) slot gen) slot gen := by
  intro u
  simp only [ownLink, actionOf_byte]
  exact ⟨_, rfl⟩

end State

open State in
/-- Settles O8: each of the twelve owners begins with the reference check (`ChecksRef`), four of them after the range of
another operand. -/
theorem referencesAreChecked : Obligations.ReferencesAreChecked := by
  unfold Obligations.ReferencesAreChecked
  intro s p t slot gen hready field presence area hedit k a position hposition c hc
  simp only [List.mem_cons, List.not_mem_nil, or_false] at hc
  rcases hc with rfl | rfl | rfl | rfl | rfl | rfl | rfl | rfl | rfl | rfl | rfl | rfl
  case _ => exact ⟨_, _, rfl, ChecksRef.answers (fun _ => ⟨_, rfl⟩) .pointRead hready rfl⟩
  case _ => exact ⟨_, _, rfl, ChecksRef.answers (fun _ => ⟨_, rfl⟩) .pointRetire hready rfl⟩
  case _ => exact ⟨_, _, rfl, ChecksRef.answers (fun _ => ⟨_, rfl⟩) .pointSample hready rfl⟩
  case _ => exact ⟨_, _, rfl, ChecksRef.answers (fun _ => ⟨_, rfl⟩) .editOpen hready rfl⟩
  case _ => exact ⟨_, _, rfl, (checksRef_ownEditSet p slot gen field presence area hedit).answers .editSet hready rfl⟩
  case _ => exact ⟨_, _, rfl, ChecksRef.answers (fun _ => ⟨_, rfl⟩) .editCommit hready rfl⟩
  case _ => exact ⟨_, _, rfl, ChecksRef.answers (fun _ => ⟨_, rfl⟩) .editDrop hready rfl⟩
  case _ => exact ⟨_, _, rfl, (checksRef_ownInsert k slot gen position hposition).answers .listInsert hready rfl⟩
  case _ => exact ⟨_, _, rfl, (checksRef_ownRemove k slot gen).answers .listRemove hready rfl⟩
  case _ => exact ⟨_, _, rfl, ChecksRef.answers (fun _ => ⟨_, rfl⟩) .noticeAck hready rfl⟩
  case _ => exact ⟨_, _, rfl, (checksRef_ownLink p a slot gen).answers .actionLink hready rfl⟩
  case _ => exact ⟨_, _, rfl, ChecksRef.answers (fun _ => ⟨_, rfl⟩) .actionUnlink hready rfl⟩

/-! ## POINT.DEFINE (R10, R11) -/

namespace State

theorem ownDefine_badArgument (s : State) (b : ConfigBlock) (h : configOf b = none ∨ b.key = 0) :
    ownDefine b s = s.reply .badArgument := by
  unfold ownDefine
  cases hcfg : configOf b with
  | none => rfl
  | some cfg => exact if_pos (h.resolve_left (by simp [hcfg]))

section Define
variable (s : State) (b : ConfigBlock) (cfg : PointConfig) (hcfg : configOf b = some cfg) (hkey : b.key ≠ 0)
  (hlimits : limitCheck cfg = true)
include hcfg hkey hlimits

theorem ownDefine_keyInUse (h : ∃ e ∈ s.keyMap, e.key = b.key) : ownDefine b s = s.reply .keyInUse := by
  have hused : (s.keySlot b.key).isSome := by
    rw [Option.isSome_iff_ne_none, ne_eq, keySlot_eq_none]
    push Not
    exact h
  simp only [ownDefine, hcfg, if_neg hkey, hlimits, Bool.true_eq_false, if_false, hused, if_true]

/-- With a new key, a definition takes the lowest FREE slot, if there is one. -/
theorem ownDefine_of_new (h : ∀ e ∈ s.keyMap, e.key ≠ b.key) : ownDefine b s =
    match s.lowestFree with
    | none => s.reply .tableFull
    | some i =>
      ((s.setSlot i (PointSlot.fresh ((s.slot i).gen + 1) b.key cfg)).setKeyMap
          ({ key := b.key, slot := i } :: s.keyMap),
        .done .ok [byte i.val, (s.slot i).gen + 1]) := by
  simp only [ownDefine, hcfg, if_neg hkey, hlimits, Bool.true_eq_false, if_false, (keySlot_eq_none s b.key).2 h,
    Option.isSome_none]
  rfl

end Define

@[simp] theorem openTag_lowestFree (s : State) (p : Port) (t : Tag) (k : Byte) :
    (s.openTag p t k).lowestFree = s.lowestFree := by
  simp [lowestFree]

end State

open State in
/-- Settles O16: the refusals of R10 in their order; the lowest FREE slot is what `lowestFree` finds. -/
theorem defineTakesTheLowestFreeSlot : Obligations.DefineTakesTheLowestFreeSlot := by
  unfold Obligations.DefineTakesTheLowestFreeSlot
  intro s p t b hready
  have hexec := exec_pointDefine s p t b
  refine ⟨fun h => exec_of_reply .pointDefine hready hexec (ownDefine_badArgument _ b h),
    fun cfg hcfg hkey hfails => exec_of_reply .pointDefine hready hexec (ownDefine_invalidLimits _ b cfg hcfg hkey hfails),
    fun cfg hcfg hkey hlimits => ⟨fun hused => ?_, fun hnew hfull => ?_, fun i hnew hfree hbelow => ?_⟩⟩
  · exact exec_of_reply .pointDefine hready hexec
      (ownDefine_keyInUse _ b cfg hcfg hkey hlimits (by rw [openTag_keyMap]; exact hused))
  · refine exec_of_reply .pointDefine hready hexec ?_
    rw [ownDefine_of_new _ b cfg hcfg hkey hlimits (by rw [openTag_keyMap]; exact hnew), openTag_lowestFree,
      (lowestFree_eq_none s).2 hfull]
  · refine exec_of_effect .pointDefine ((s.setSlot i (PointSlot.fresh ((s.slot i).gen + 1) b.key cfg)).setKeyMap
      ({ key := b.key, slot := i } :: s.keyMap)) hready hexec ?_ ?_
    · rw [ownDefine_of_new _ b cfg hcfg hkey hlimits (by rw [openTag_keyMap]; exact hnew), openTag_lowestFree,
        lowestFree_eq s i hfree fun j hj => by simp [hbelow j hj]]
      simp only [openTag_slot, openTag_setSlot, openTag_keyMap, openTag_setKeyMap]
    · simp

end Sys2Proof.Machine
end

section
/-! SUPPORT. POINT.FIND, POINT.READ and TABLE.SUMMARY: what each answers from the table as it stands (R13, R14, R16,
R188). -/

namespace Sys2Proof.Machine

theorem exec_pointFind (s : State) (p : Port) (t : Tag) (key : Word32) :
    exec (.pointFind p t key) s = .next (s.request p t .pointFind (State.ownFind key)) := rfl

theorem exec_pointRead (s : State) (p : Port) (t : Tag) (slot gen : Byte) :
    exec (.pointRead p t slot gen) s = .next (s.request p t .pointRead (State.ownRead slot gen)) := rfl

theorem exec_tableSummary (s : State) (p : Port) (t : Tag) (start : Byte) :
    exec (.tableSummary p t start) s = .next (s.request p t .tableSummary (State.ownSummary start)) := rfl

namespace State

/-! ## POINT.FIND (R13) -/

theorem ownFind_notFound (s : State) (key : Word32) (hkey : key ≠ 0) (h : ∀ e ∈ s.keyMap, e.key ≠ key) :
    ownFind key s = s.reply .notFound := by
  rw [ownFind, if_neg hkey, (keySlot_eq_none s key).2 h]

theorem ownFind_found (s : State) (key : Word32) (i : SlotNo) (hkey : key ≠ 0) (h : s.keySlot key = some i) :
    ownFind key s = s.reply .ok [byte i.val, (s.slot i).gen] := by
  rw [ownFind, if_neg hkey, h]

/-! ## The parts of a point record (R14, R188) -/

/-- Under the law of the lists, the entry that names a point is its place (R47). -/
theorem membership_of_entry (s : State) (hlists : ListLaw s) (i : SlotNo) (c : ClassNo) (k : Nat)
    (h : (s.cls c).list[k]? = some { slot := i, gen := (s.slot i).gen }) : s.membership i = some (c, k) := by
  cases hm : s.membership i with
  | none => simpa using (membership_eq_none s i).1 hm c _ (List.mem_of_getElem? h)
  | some x =>
    obtain ⟨e, he, hslot, -⟩ := membership_entry s i x.1 x.2 hm
    obtain ⟨hc, hk⟩ := hlists.2 c x.1 k x.2 _ e h he hslot.symm
    rw [hc, hk]

theorem membershipBytes_unlisted (s : State) (i : SlotNo)
    (h : ∀ c, ∀ e ∈ (s.cls c).list, e ≠ { slot := i, gen := (s.slot i).gen }) : s.membershipBytes i = [0xFF, 0] := by
  have hnone : s.membership i = none := by
    rw [membership_eq_none]
    intro c e he
    by_contra hsame
    push Not at hsame
    obtain ⟨hslot, hgen⟩ := hsame
    exact h c e he (by rw [← hgen, ← hslot])
  rw [membershipBytes, hnone]

theorem membershipBytes_listed (s : State) (hlists : ListLaw s) (i : SlotNo) (c : ClassNo) (k : Nat)
    (h : (s.cls c).list[k]? = some { slot := i, gen := (s.slot i).gen }) :
    s.membershipBytes i = [byte c.val, byte k] := by
  rw [membershipBytes, membership_of_entry s hlists i c k h]

theorem rawBytes_eq_byte (v : RawReading) : rawBytes v = [byte (v.toNat / 256), byte v.toNat] := by
  rw [rawBytes_eq, byte_mod]

theorem staleTimerBytes_eq (s : State) (i : SlotNo) : s.staleTimerBytes i =
    match (s.slot i).staleTimer with
    | none => ([0, 0] : List Byte)
    | some due => bytes16 (BitVec.ofNat 16 (max 1 ((due - s.now + 999) / 1000))) := by
  unfold staleTimerBytes
  cases (s.slot i).staleTimer with
  | none => rfl
  | some due => rfl

theorem claimByte_eq (claim : Option Claim) : portCode (claim.map Claim.owner) =
    match claim with
    | none => (0 : Byte)
    | some c => if c.owner = .H then 1 else 2 := by
  cases claim with
  | none => rfl
  | some c => cases hc : c.owner <;> simp [hc, portCode]

theorem noticeBytes_of_record (s : State) (i : SlotNo) : [noticeStateCode (s.notice i), s.followOnByte i] =
    match s.notice i with
    | none => ([0, 0] : List Byte)
    | some n => [match n.state with
      | .pending => 1
      | .delivered .H => 2
      | .delivered .L => 3, if n.followOn = none then 0 else 1] := by
  unfold followOnByte
  cases s.notice i with
  | none => rfl
  | some n =>
    have hfollow : yesNoByte n.followOn.isSome = if n.followOn = none then 0 else 1 := by
      cases n.followOn <;> rfl
    exact congrArg (fun x => [noticeStateCode (some n), x]) hfollow

/-- The bytes of a point record beside a request's open tag. -/
theorem pointBytes_openTag (s : State) (p : Port) (t : Tag) (k : Byte) (i : SlotNo) :
    (s.openTag p t k).pointBytes i = s.pointBytes i := by
  simp only [pointBytes, staleTimerBytes, remainingMs, membershipBytes, membership, followOnByte, openTag_slot, openTag_cls,
    openTag_notice, openTag_now]

/-! ## TABLE.SUMMARY (R16) -/

theorem definedFrom_openTag (s : State) (p : Port) (t : Tag) (k : Byte) (start : SlotNo) :
    (s.openTag p t k).definedFrom start = s.definedFrom start := by
  simp only [definedFrom, openTag_slot]

theorem summaryBytes_openTag (s : State) (p : Port) (t : Tag) (k : Byte) (start : SlotNo) :
    (s.openTag p t k).summaryBytes start = s.summaryBytes start := by
  simp only [summaryBytes, definedFrom_openTag, definedCount, openTag_slot]

theorem ownSummary_inRange (s : State) (start : SlotNo) :
    ownSummary (byte start.val) s = s.reply .ok (s.summaryBytes start) := by
  simp only [ownSummary, slotOf_byte]

section Summary
variable (s : State) (all : List SlotNo) (hsorted : all.Pairwise (· < ·))
  (hall : ∀ i, i ∈ all ↔ (s.slot i).state = .defined)
include hsorted hall

/-- A rising list of the DEFINED slots is the one the table is read in. -/
theorem definedSlots_eq : all = allSlots.filter fun i => (s.slot i).state == .defined :=
  hsorted.eq_of_mem_iff ((List.pairwise_lt_finRange 128).filter _) (by simp [hall, allSlots])

theorem definedCount_eq : s.definedCount = all.length := by
  rw [definedSlots_eq s all hsorted hall, definedCount, List.countP_eq_length_filter]

theorem definedFrom_eq (start : SlotNo) : s.definedFrom start = all.filter fun i => start ≤ i := by
  rw [definedSlots_eq s all hsorted hall, definedFrom, List.filter_filter]

end Summary

/-- The answer of a summary, with the slot to continue at: the one after the last pair sent, where more lie above it. -/
theorem summaryBytes_eq (s : State) (start : SlotNo) (above : List SlotNo) (h : s.definedFrom start = above) :
    s.summaryBytes start = [byte s.definedCount, byte (above.take 28).length] ++
      (above.take 28).flatMap (fun i => [byte i.val, (s.slot i).gen]) ++
      [match above[27]? with
        | none => 0xFF
        | some i => if 28 < above.length then byte (i.val + 1) else 0xFF] := by
  rw [summaryBytes, h]
  by_cases hmore : 28 < above.length
  · have h27 : above[27]? = some above[27] := List.getElem?_eq_getElem (by omega)
    have hlast : (above.take 28).getLast? = some above[27] := by
      rw [List.getLast?_eq_getElem?]
      simp [Nat.min_eq_left hmore.le]
    obtain ⟨x, rest, hdrop⟩ : ∃ x rest, above.drop 28 = x :: rest := ⟨_, _, List.drop_eq_getElem_cons hmore⟩
    simp only [hdrop, hlast, h27, if_pos hmore]
  · have hdrop : above.drop 28 = [] := List.drop_eq_nil_of_le (Nat.le_of_not_lt hmore)
    rw [hdrop]
    cases above[27]? with
    | none => rfl
    | some i => simp only [if_neg hmore]

end State

open State in
/-- Settles O17: the three owners reply from the table; the record's parts are spelled out one by one, and the summary
reads the DEFINED slots in rising order (`definedSlots_eq`). -/
theorem lookupsOnlyAnswer : Obligations.LookupsOnlyAnswer := by
  unfold Obligations.LookupsOnlyAnswer
  intro s p t hready
  refine ⟨exec_of_reply .pointFind hready (exec_pointFind s p t 0) rfl, fun key hkey hnone => ?_, fun i hkeys hdefined => ?_,
    fun i g place hnames hplace => ?_, fun b hb => ?_, fun start all hsorted hall => ?_⟩
  · exact exec_of_reply .pointFind hready (exec_pointFind s p t key)
      (ownFind_notFound _ key hkey (by rw [openTag_keyMap]; exact hnone))
  · obtain ⟨hkey, hslot⟩ := hkeys.2 i hdefined
    refine exec_of_reply .pointFind hready (exec_pointFind s p t _) ?_
    rw [ownFind_found _ _ i hkey (by rw [openTag_keySlot]; exact hslot), openTag_slot]
  · obtain ⟨-, rfl⟩ := (names_iff s i g).1 hnames
    have hbytes : s.membershipBytes i = place := by
      rcases hplace with ⟨hunlisted, rfl⟩ | ⟨hlists, c, k, hentry, rfl⟩
      · exact membershipBytes_unlisted s i hunlisted
      · exact membershipBytes_listed s hlists i c k hentry
    refine exec_of_reply .pointRead hready (exec_pointRead s p t _ _) ?_
    rw [ownRead, withRef_openTag hnames, pointBytes_openTag]
    simp only [pointBytes, rawBytes_eq_byte, staleTimerBytes_eq, claimByte_eq, hbytes, noticeBytes_of_record,
      List.append_assoc, List.cons_append, List.nil_append] <;> rfl
  · refine exec_of_reply .tableSummary hready (exec_tableSummary s p t b) ?_
    rw [ownSummary, (slotOf_eq_none b).2 hb]
  · intro above
    refine exec_of_reply .tableSummary hready (exec_tableSummary s p t _) ?_
    rw [ownSummary_inRange, summaryBytes_openTag, ← definedCount_eq s all hsorted hall]
    exact congrArg (fun data => (s.openTag p t Kind.tableSummary.code).reply .ok data)
      (summaryBytes_eq s start above (definedFrom_eq s all hsorted hall start))

end Sys2Proof.Machine
end

section
/-! SUPPORT. LIST.INSERT and LIST.REMOVE: the entry goes in or out of its class's list, and the pass is settled by where the
cursor and the job stand (R48, R49, R60 to R63). -/

namespace Sys2Proof.Machine

theorem exec_listInsert (s : State) (p : Port) (t : Tag) (cls slot gen position : Byte) :
    exec (.listInsert p t cls slot gen position) s =
      .next (s.request p t .listInsert (State.ownInsert cls slot gen position)) := rfl

theorem exec_listRemove (s : State) (p : Port) (t : Tag) (cls slot gen : Byte) :
    exec (.listRemove p t cls slot gen) s = .next (s.request p t .listRemove (State.ownRemove cls slot gen)) := rfl

namespace State

/-! ## The removal of an entry, by where the cursor stands (R61 to R63) -/

section Removal
variable (s : State) (c : ClassNo) (before after : List ListEntry) (x : ListEntry)
  (hlist : (s.cls c).list = before ++ x :: after)
include hlist

theorem removeEntry_before_cursor (h : before.length < (s.cls c).cursor) : s.removeEntry c before.length =
    s.setCls c { s.cls c with list := before ++ after, cursor := (s.cls c).cursor - 1 } := by
  rw [removeEntry, if_pos h, hlist, eraseIdx_append_self]

theorem removeEntry_beyond_cursor (h : (s.cls c).cursor < before.length) : s.removeEntry c before.length =
    s.setCls c { s.cls c with list := before ++ after } := by
  rw [removeEntry, if_neg (Nat.lt_asymm h), if_pos h, hlist, eraseIdx_append_self]

/-- At the cursor, the job of the class decides. -/
theorem removeEntry_at_cursor (h : (s.cls c).cursor = before.length) : s.removeEntry c before.length =
    match (s.cls c).job with
    | none => s.setCls c { s.cls c with list := before ++ after }
    | some j =>
      match j.phase with
      | .posted => (s.setCls c { s.cls c with list := before ++ after, job := none }).continuePass c
      | .converting => s.setCls c { s.cls c with list := before ++ after, removedMark := true } := by
  rw [removeEntry, h, if_neg (Nat.lt_irrefl _), if_neg (Nat.lt_irrefl _), hlist, eraseIdx_append_self] <;> rfl

theorem removeEntry_idle (h : (s.cls c).cursor = before.length) (hjob : (s.cls c).job = none) :
    s.removeEntry c before.length = s.setCls c { s.cls c with list := before ++ after } := by
  rw [removeEntry_at_cursor s c before after x hlist h, hjob]

theorem removeEntry_converting (h : (s.cls c).cursor = before.length) (j : ScanJob)
    (hjob : (s.cls c).job = some { job := j, phase := .converting }) : s.removeEntry c before.length =
    s.setCls c { s.cls c with list := before ++ after, removedMark := true } := by
  rw [removeEntry_at_cursor s c before after x hlist h, hjob]

section Posted
variable (h : (s.cls c).cursor = before.length) (j : ScanJob)
  (hjob : (s.cls c).job = some { job := j, phase := .posted }) (hrunning : (s.cls c).state = .running)
include h hjob hrunning

/-- The withdrawn job was the last of the pass, which completes (R59, R62). -/
theorem removeEntry_posted_last (hafter : after = []) : s.removeEntry c before.length =
    s.setCls c { s.cls c with list := before ++ after, job := none, state := .waiting } := by
  rw [removeEntry_at_cursor s c before after x hlist h, hjob]
  simp only
  rw [continuePass_completes _ _ (by rw [cls_setCls_self]; exact hrunning) (by rw [cls_setCls_self])
    (by simp [h, hafter]), cls_setCls_self, setCls_setCls]

/-- The withdrawn job's place is taken by the next entry's (R56, R62). -/
theorem removeEntry_posted_next (e : ListEntry) (rest : List ListEntry) (hafter : after = e :: rest) :
    s.removeEntry c before.length = s.setCls c { s.cls c with
      list := before ++ after, job := some { phase := .posted, job := s.jobFor e } } := by
  rw [removeEntry_at_cursor s c before after x hlist h, hjob]
  simp only
  rw [continuePass_posts _ _ e (by rw [cls_setCls_self]; exact hrunning) (by rw [cls_setCls_self])
    (by simp [h, hafter]), cls_setCls_self, setCls_setCls]
  rfl

end Posted
end Removal

/-- A removal beside a request's open tag. -/
theorem removeEntry_openTag (s : State) (p : Port) (t : Tag) (k : Byte) (c : ClassNo) (n : Nat) :
    (s.openTag p t k).removeEntry c n = (s.removeEntry c n).openTag p t k := by
  simp only [removeEntry, openTag_cls, openTag_setCls, openTag_continuePass]
  split
  next => rfl
  next =>
    split
    next => rfl
    next =>
      cases (s.cls c).job with
      | none => rfl
      | some j =>
        obtain ⟨j, phase⟩ := j
        cases phase <;> rfl

/-! ## LIST.REMOVE (R49) -/

theorem ownRemove_badArgument (s : State) (b slot gen : Byte) (h : 4 ≤ b.toNat) :
    ownRemove b slot gen s = s.reply .badArgument := by
  rw [ownRemove, (classOf_eq_none b).2 h]

theorem ownRemove_of_names (s : State) (c : ClassNo) (i : SlotNo) (g : Generation) (hnames : s.names i g = true) :
    ownRemove (byte c.val) (byte i.val) g s =
      match (s.cls c).indexOf i g with
      | none => s.reply .notListed
      | some k => ((s.removeEntry c k).stopTimer i, .done .ok [byte k]) := by
  simp only [ownRemove, classOf_byte, withRef_good s i g _ hnames] <;> rfl

/-- A removal that settles its class to `r` is answered with the index of the entry. -/
theorem exec_listRemove_of_removes {s : State} {p : Port} {t : Tag} {c : ClassNo} {i : SlotNo} {g : Generation}
    (hready : s.Ready p t) (hnames : s.names i g = true) {n : Nat} (hindex : (s.cls c).indexOf i g = some n)
    {r : ScanClass} (hremoves : s.removeEntry c n = s.setCls c r) :
    exec (.listRemove p t (byte c.val) (byte i.val) g) s = .next
      (((s.setCls c r).setSlot i { s.slot i with staleTimer := none }).answered p t 0x39 .ok [byte n]) := by
  refine exec_of_effect .listRemove _ hready (exec_listRemove s p t _ _ g) ?_ (by rw [setSlot_port, setCls_port])
  rw [ownRemove_of_names _ c i g (by rw [openTag_names]; exact hnames), openTag_cls, hindex]
  simp only [removeEntry_openTag, hremoves, stopTimer, openTag_setSlot, openTag_slot, setCls_slot]

end State

open State in
/-- Settles O29: the entry is found at its index (`indexOf_append`), and each place of the cursor and the job has its
equation of `removeEntry`. -/
theorem removeSettlesThePass : Obligations.RemoveSettlesThePass := by
  unfold Obligations.RemoveSettlesThePass
  intro s p t c i g hready hnames
  refine ⟨fun b hb => exec_of_reply .listRemove hready (exec_listRemove s p t _ _ g) (ownRemove_badArgument _ b _ g hb),
    fun hunlisted => ?_, ?_⟩
  · refine exec_of_reply .listRemove hready (exec_listRemove s p t _ _ g) ?_
    rw [ownRemove_of_names _ c i g (by rw [openTag_names]; exact hnames), openTag_cls,
      (indexOf_eq_none (s.cls c) i g).2 hunlisted]
  · intro before after hlist hfirst removed
    have hindex := indexOf_append (s.cls c) before after i g hlist hfirst
    have removes {r : ScanClass} (hremoves : s.removeEntry c before.length = s.setCls c { r with list := before ++ after }) :
        removed r := exec_listRemove_of_removes hready hnames hindex hremoves
    exact ⟨fun h => removes (removeEntry_before_cursor s c before after _ hlist h),
      fun h => removes (removeEntry_beyond_cursor s c before after _ hlist h),
      fun h => ⟨fun hjob => removes (removeEntry_idle s c before after _ hlist h hjob),
        fun j hjob => removes (removeEntry_converting s c before after _ hlist h j hjob),
        fun j hjob hrunning =>
          ⟨fun hafter => removes (removeEntry_posted_last s c before after _ hlist h j hjob hrunning hafter),
            fun e rest hafter => removes (removeEntry_posted_next s c before after _ hlist h j hjob hrunning e rest hafter)⟩⟩⟩

namespace State

/-! ## LIST.INSERT (R48) -/

theorem ownInsert_badArgument (s : State) (b slot gen position : Byte) (h : 4 ≤ b.toNat ∨ 48 < position.toNat) :
    ownInsert b slot gen position s = s.reply .badArgument := by
  unfold ownInsert
  cases hb : classOf b with
  | none => rfl
  | some c =>
    have hclass : ¬4 ≤ b.toNat := fun hge => by simp [(classOf_eq_none b).2 hge] at hb
    exact if_pos (h.resolve_left hclass)

section Insert
variable (s : State) (c : ClassNo) (i : SlotNo) (g : Generation) (position : Byte) (hnames : s.names i g = true)
include hnames

theorem membership_eq_none_of_names : s.membership i = none ↔ ∀ d, ∀ e ∈ (s.cls d).list, e.slot ≠ i ∨ e.gen ≠ g := by
  rw [membership_eq_none, ((names_iff s i g).1 hnames).2]

theorem ownInsert_alreadyListed (hposition : position.toNat ≤ 48)
    (h : ∃ d, ∃ e ∈ (s.cls d).list, e.slot = i ∧ e.gen = g) :
    ownInsert (byte c.val) (byte i.val) g position s = s.reply .alreadyListed := by
  have hlisted : (s.membership i).isSome := by
    rw [Option.isSome_iff_ne_none, ne_eq, membership_eq_none_of_names s i g hnames]
    push Not
    exact h
  simp only [ownInsert, classOf_byte, withRef_good s i g _ hnames, hlisted, if_true,
    if_neg (show ¬Config.listCapacity < position.toNat from Nat.not_lt.2 hposition)]

/-- A point that no class lists: the position's range in the list, then the list's capacity. -/
theorem ownInsert_of_unlisted (h : ∀ d, ∀ e ∈ (s.cls d).list, e.slot ≠ i ∨ e.gen ≠ g)
    (hposition : position.toNat ≤ 48) : ownInsert (byte c.val) (byte i.val) g position s =
    if (s.cls c).list.length < position.toNat then s.reply .badArgument
    else if 48 ≤ (s.cls c).list.length then s.reply .listFull
    else
      (if ((s.insertEntry c position.toNat { slot := i, gen := g }).cls c).state = .waiting ∨
          ((s.insertEntry c position.toNat { slot := i, gen := g }).cls c).state = .running then
        (s.insertEntry c position.toNat { slot := i, gen := g }).startTimer i
      else s.insertEntry c position.toNat { slot := i, gen := g }, .done .ok [byte c.val, position]) := by
  have hunlisted := (membership_eq_none_of_names s i g hnames).2 h
  simp only [ownInsert, classOf_byte, withRef_good s i g _ hnames, hunlisted, Option.isSome_none,
    if_neg (show ¬Config.listCapacity < position.toNat from Nat.not_lt.2 hposition)]
  rfl

end Insert

/-- An entry that goes in at a place of the list, with the cursor kept on its entry (R48, R60). -/
theorem insertEntry_eq (s : State) (c : ClassNo) (k : Nat) (e : ListEntry) (hk : k ≤ (s.cls c).list.length) :
    s.insertEntry c k e = s.setCls c { s.cls c with
      list := (s.cls c).list.take k ++ [e] ++ (s.cls c).list.drop k
      cursor := if k ≤ (s.cls c).cursor then (s.cls c).cursor + 1 else (s.cls c).cursor } := by
  rw [insertEntry, insertIdx_eq _ _ _ hk]

/-- The timer that an insert into an active class starts, as a write of the record (R50). -/
theorem startTimer_if_eq (s : State) (i : SlotNo) (active : Prop) [Decidable active] :
    (if active then s.startTimer i else s) = s.setSlot i { s.slot i with
      staleTimer :=
        if active ∧ (s.slot i).cfg.staleInterval.isSome then
          (s.slot i).cfg.staleInterval.map fun ms => s.now + ms * 1000
        else (s.slot i).staleTimer } := by
  by_cases h : active
  · rw [if_pos h, startTimer_eq]
    cases (s.slot i).cfg.staleInterval <;> simp [h]
  · rw [if_neg h, if_neg fun hand => h hand.1]
    exact (setSlot_slot_self s i).symm

end State

open State in
/-- Settles O28: the refusals of R48 in their order; the entry goes in (`insertEntry_eq`) and the point's timer starts
where the class is active (`startTimer_if_eq`). -/
theorem insertKeepsTheCursorsEntry : Obligations.InsertKeepsTheCursorsEntry := by
  unfold Obligations.InsertKeepsTheCursorsEntry
  intro s p t c i g k hready hnames
  have hopen (kind : Byte) : (s.openTag p t kind).names i g = true := by rw [openTag_names]; exact hnames
  refine ⟨fun b hb => exec_of_reply .listInsert hready (exec_listInsert s p t b _ g k) (ownInsert_badArgument _ b _ g k hb),
    fun hk hlisted => exec_of_reply .listInsert hready (exec_listInsert s p t _ _ g k)
      (ownInsert_alreadyListed _ c i g k (hopen _) hk (by simpa only [openTag_cls] using hlisted)),
    fun hunlisted => ⟨fun hbeyond => ?_, fun hk hfull => ?_, fun hk hroom => ?_⟩⟩
  · by_cases h48 : k.toNat ≤ 48
    · refine exec_of_reply .listInsert hready (exec_listInsert s p t _ _ g k) ?_
      rw [ownInsert_of_unlisted _ c i g k (hopen _) (by simpa only [openTag_cls] using hunlisted) h48, openTag_cls,
        if_pos hbeyond]
    · exact exec_of_reply .listInsert hready (exec_listInsert s p t _ _ g k)
        (ownInsert_badArgument _ _ _ g k (.inr (Nat.lt_of_not_le h48)))
  · refine exec_of_reply .listInsert hready (exec_listInsert s p t _ _ g k) ?_
    rw [ownInsert_of_unlisted _ c i g k (hopen _) (by simpa only [openTag_cls] using hunlisted) (hk.trans hfull.le),
      openTag_cls, if_neg (Nat.not_lt.2 hk), if_pos hfull.ge]
  · refine exec_of_effect .listInsert _ hready (exec_listInsert s p t _ _ g k) ?_ (by rw [setSlot_port, setCls_port])
    rw [ownInsert_of_unlisted _ c i g k (hopen _) (by simpa only [openTag_cls] using hunlisted) (hk.trans hroom.le),
      openTag_cls, if_neg (Nat.not_lt.2 hk), if_neg (Nat.not_le.2 hroom), insertEntry_eq _ _ _ _ (by simpa using hk)]
    simp only [startTimer_if_eq, openTag_cls, openTag_setCls, openTag_setSlot, openTag_slot, openTag_now, cls_setCls_self,
      setCls_slot, setCls_now]

end Sys2Proof.Machine
end

section
/-! SUPPORT. POINT.RETIRE, ACTION.LINK and ACTION.UNLINK (R17 to R22, R41, R137, R138). -/

namespace Sys2Proof.Machine

theorem exec_pointRetire (s : State) (p : Port) (t : Tag) (slot gen : Byte) :
    exec (.pointRetire p t slot gen) s = .next (s.request p t .pointRetire (State.ownRetire p slot gen)) := rfl

theorem exec_actionLink (s : State) (p : Port) (t : Tag) (action slot gen : Byte) :
    exec (.actionLink p t action slot gen) s =
      .next (s.request p t .actionLink (State.ownLink p action slot gen)) := rfl

theorem exec_actionUnlink (s : State) (p : Port) (t : Tag) (slot gen : Byte) :
    exec (.actionUnlink p t slot gen) s = .next (s.request p t .actionUnlink (State.ownUnlink p slot gen)) := rfl

namespace State

theorem claimedByOther_iff (s : State) (p : Port) (i : SlotNo) :
    s.claimedByOther p i = true ↔ (s.slot i).claim.map Claim.owner = some p.other := beq_iff_eq

@[simp] theorem openTag_claimedByOther (s : State) (p q : Port) (t : Tag) (k : Byte) (i : SlotNo) :
    (s.openTag p t k).claimedByOther q i = s.claimedByOther q i := by
  simp only [claimedByOther, openTag_slot]

/-! ## A retire beside a request's open tag -/

theorem retireEntry_openTag (s : State) (p : Port) (t : Tag) (k : Byte) (i : SlotNo) :
    (s.openTag p t k).retireEntry i = (s.retireEntry i).openTag p t k := by
  have hplace : (s.openTag p t k).membership i = s.membership i := by
    simp only [membership, openTag_cls, openTag_slot]
  simp only [retireEntry, hplace]
  cases s.membership i with
  | none => rfl
  | some x => exact removeEntry_openTag s p t k x.1 x.2

theorem unlink_openTag (s : State) (p : Port) (t : Tag) (k : Byte) (a : ActionNo) :
    (s.openTag p t k).unlink a = (s.unlink a).openTag p t k := by
  simp only [unlink, openTag_action, openTag_setAction]

theorem retireLink_openTag (s : State) (p : Port) (t : Tag) (k : Byte) (i : SlotNo) :
    (s.openTag p t k).retireLink i = (s.retireLink i).openTag p t k := by
  simp only [retireLink, openTag_slot]
  cases (s.slot i).link with
  | none => rfl
  | some a => simp only [unlink_openTag, openTag_dropSaved]

theorem retire_openTag (s : State) (p : Port) (t : Tag) (k : Byte) (i : SlotNo) :
    (s.openTag p t k).retire i = (s.retire i).openTag p t k := by
  simp only [retire, retireEntry_openTag, openTag_setNotice, retireLink_openTag, openTag_slot, openTag_setSlot,
    openTag_keyMap, openTag_setKeyMap]

/-! ## The outputs and the classes of a retire (R19, R21) -/

theorem retireEntry_output (s : State) (i : SlotNo) (o : OutputNo) : (s.retireEntry i).output o = s.output o := by
  rcases retireEntry_frame s i with he | ⟨c, r, he⟩
  · rw [he]
  · rw [he, setCls_output]

/-- The saved values that a retire drops are those of the linked action's drives for the slot (R21). -/
theorem retire_output (s : State) (i : SlotNo) (o : OutputNo) : (s.retire i).output o =
    if ∃ a, (s.slot i).link = some a ∧ (s.output o).lastWriter = .action a i then { s.output o with saved := none }
    else s.output o := by
  have hrest : (s.retire i).output o = (((s.retireEntry i).setNotice i none).retireLink i).output o := rfl
  rw [hrest, retireLink, setNotice_slot, retireEntry_slot]
  cases hlink : (s.slot i).link with
  | none => simp [retireEntry_output]
  | some a =>
    simp only [dropSaved, output_mapOutputs, unlink, setAction_output, setNotice_output, retireEntry_output, isDrive_iff,
      Option.some.injEq, exists_eq_left']

/-- A class that does not list the point is no part of its retire. -/
theorem retire_cls_of_unlisted (s : State) (i : SlotNo) (c : ClassNo) (h : ∀ e ∈ (s.cls c).list, e.slot ≠ i) :
    (s.retire i).cls c = s.cls c := by
  rw [(retire_retired s i).cls]
  rcases retireEntry_cases s i with ⟨-, he⟩ | ⟨d, k, hk, he⟩
  · rw [he]
  · rw [he]
    by_cases hdc : d = c
    · subst hdc
      exact absurd rfl (h _ (List.mem_of_getElem? hk))
    · exact removeEntry_cls_ne s d c k hdc

/-- The class that lists the point is settled as by the removal of its entry (R19). -/
theorem retire_cls_of_listed (s : State) (hlists : ListLaw s) (i : SlotNo) (c : ClassNo) (before after : List ListEntry)
    (hlist : (s.cls c).list = before ++ { slot := i, gen := (s.slot i).gen } :: after) {r : ScanClass}
    (hremoves : s.removeEntry c before.length = s.setCls c r) : (s.retire i).cls c = r := by
  have hentry : s.retireEntry i = s.removeEntry c before.length := by
    rw [retireEntry, membership_of_entry s hlists i c before.length (by simp [hlist])]
  rw [(retire_retired s i).cls, hentry, hremoves, cls_setCls_self]

/-- Under its law a class whose job is POSTED is RUNNING (R57). -/
theorem running_of_posted {k : ScanClass} (hlegal : k.Legal) {j : ScanJob}
    (hjob : k.job = some { job := j, phase := .posted }) : k.state = .running := by
  obtain ⟨-, -, -, hstate⟩ := hlegal
  rw [hjob] at hstate
  cases h : k.state with
  | running => rfl
  | stopped => simp [h] at hstate
  | waiting => simp [h] at hstate
  | stopping => simp [h] at hstate

theorem ownRetire_claimed (s : State) (p : Port) (i : SlotNo) (g : Generation) (hnames : s.names i g = true)
    (h : (s.slot i).claim.map Claim.owner = some p.other) : ownRetire p (byte i.val) g s = s.reply .claimed := by
  rw [ownRetire, withRef_good s i g _ hnames, if_pos ((claimedByOther_iff s p i).2 h)]

theorem ownRetire_retires (s : State) (p : Port) (i : SlotNo) (g : Generation) (hnames : s.names i g = true)
    (h : (s.slot i).claim.map Claim.owner ≠ some p.other) :
    ownRetire p (byte i.val) g s = (s.retire i, .done .ok [byte i.val, g]) := by
  rw [ownRetire, withRef_good s i g _ hnames, if_neg (mt (claimedByOther_iff s p i).1 h), ((names_iff s i g).1 hnames).2]

end State

open State in
/-- Settles O18: what a retire leaves is `retire_retired` block by block, with the outputs of `retire_output`; the class
that lists the point has each removal's equation (`retire_cls_of_listed`). -/
theorem retireClearsEveryReference : Obligations.RetireClearsEveryReference := by
  unfold Obligations.RetireClearsEveryReference
  intro s p t i g hready hnames
  have hopen (kind : Byte) : (s.openTag p t kind).names i g = true := by rw [openTag_names]; exact hnames
  obtain ⟨-, rfl⟩ := (names_iff s i g).1 hnames
  refine ⟨fun hclaimed => exec_of_reply .pointRetire hready (exec_pointRetire s p t _ _)
    (ownRetire_claimed _ p i _ (hopen _) (by rw [openTag_slot]; exact hclaimed)), fun hfree hsched => ?_⟩
  have hu := retire_retired s i
  refine ⟨s.retire i, ?_, fun j => ?_, hu.keyMap, fun j => ?_, retire_cls_of_unlisted s i, fun c before after hlist => ?_,
    hu.actions, retire_output s i, hu.frontEnd, hu.raiseSeq, hu.waits, hu.ports, hu.now⟩
  · refine exec_of_effect .pointRetire _ hready (exec_pointRetire s p t _ _) ?_ (hu.ports p)
    rw [ownRetire_retires _ p i _ (hopen _) (by rw [openTag_slot]; exact hfree), retire_openTag]
  · simp only [hu.slots, eq_comm]
  · simp only [hu.notices, eq_comm]
  · have settles {r : ScanClass} (hremoves : s.removeEntry c before.length = s.setCls c r) : (s.retire i).cls c = r :=
      retire_cls_of_listed s hsched.1 i c before after hlist hremoves
    exact ⟨fun h => settles (removeEntry_before_cursor s c before after _ hlist h),
      fun h => settles (removeEntry_beyond_cursor s c before after _ hlist h),
      fun h => ⟨fun hjob => settles (removeEntry_idle s c before after _ hlist h hjob),
        fun j hjob => settles (removeEntry_converting s c before after _ hlist h j hjob),
        fun j hjob => ⟨fun hafter => settles (removeEntry_posted_last s c before after _ hlist h j hjob
            (running_of_posted (hsched.2.1 c) hjob) hafter),
          fun e rest hafter => settles (removeEntry_posted_next s c before after _ hlist h j hjob
            (running_of_posted (hsched.2.1 c) hjob) e rest hafter)⟩⟩⟩

/-! ## ACTION.LINK and ACTION.UNLINK (R137, R138) -/

namespace State

theorem ownLink_badArgument (s : State) (p : Port) (b slot gen : Byte) (h : 16 ≤ b.toNat) :
    ownLink p b slot gen s = s.reply .badArgument := by
  rw [ownLink, (actionOf_eq_none b).2 h]

section Link
variable (s : State) (p : Port) (a : ActionNo) (i : SlotNo) (g : Generation) (hnames : s.names i g = true)
include hnames

theorem ownLink_claimed (h : (s.slot i).claim.map Claim.owner = some p.other) :
    ownLink p (byte a.val) (byte i.val) g s = s.reply .claimed := by
  simp only [ownLink, actionOf_byte, withRef_good s i g _ hnames, if_pos ((claimedByOther_iff s p i).2 h)]

theorem ownUnlink_claimed (h : (s.slot i).claim.map Claim.owner = some p.other) :
    ownUnlink p (byte i.val) g s = s.reply .claimed := by
  rw [ownUnlink, withRef_good s i g _ hnames, if_pos ((claimedByOther_iff s p i).2 h)]

variable (hfree : (s.slot i).claim.map Claim.owner ≠ some p.other)
include hfree

/-- A link of a point that the other port has not claimed: the action's state, then the point's link. -/
theorem ownLink_of_unclaimed : ownLink p (byte a.val) (byte i.val) g s =
    if (s.action a).state ≠ .armed then s.reply .actionNotArmed
    else if (s.slot i).link.isSome then s.reply .linked
    else
      ((s.setSlot i { s.slot i with link := some a }).setAction a
          { s.action a with linkCount := (s.action a).linkCount + 1 },
        .done .ok [byte a.val, byte ((s.action a).linkCount + 1)]) := by
  simp only [ownLink, actionOf_byte, withRef_good s i g _ hnames, if_neg (mt (claimedByOther_iff s p i).1 hfree)]

theorem ownUnlink_notLinked (h : (s.slot i).link = none) : ownUnlink p (byte i.val) g s = s.reply .notLinked := by
  rw [ownUnlink, withRef_good s i g _ hnames, if_neg (mt (claimedByOther_iff s p i).1 hfree), h]

theorem ownUnlink_unlinks (h : (s.slot i).link = some a) : ownUnlink p (byte i.val) g s =
    (((s.setSlot i { s.slot i with link := none }).unlink a).dropSaved (LastWriter.isDrive a i),
      .done .ok [byte a.val, byte ((s.action a).linkCount - 1)]) := by
  rw [ownUnlink, withRef_good s i g _ hnames, if_neg (mt (claimedByOther_iff s p i).1 hfree), h]

end Link

/-- The channels that an action last drove for a slot, record by record (R138). -/
theorem withOutputs_dropSaved_isDrive (s u : State) (a : ActionNo) (i : SlotNo) (h : ∀ o, u.output o = s.output o) :
    (u.withOutputs fun o =>
      if (s.output o).lastWriter = .action a i then { s.output o with saved := none } else s.output o) =
      u.dropSaved (LastWriter.isDrive a i) :=
  dropSaved_eq u _ _ fun o => by simp only [h, isDrive_iff]

end State

open State in
/-- Settles O48: the tests of R137 and R138 in their order. -/
theorem linksMoveWithTheirCount : Obligations.LinksMoveWithTheirCount := by
  unfold Obligations.LinksMoveWithTheirCount
  intro s p t a i g hready hnames
  have hopen (kind : Byte) : (s.openTag p t kind).names i g = true := by rw [openTag_names]; exact hnames
  refine ⟨fun b hb => exec_of_reply .actionLink hready (exec_actionLink s p t b _ g) (ownLink_badArgument _ p b _ g hb),
    fun hclaimed => ⟨exec_of_reply .actionLink hready (exec_actionLink s p t _ _ g)
        (ownLink_claimed _ p a i g (hopen _) (by rw [openTag_slot]; exact hclaimed)),
      exec_of_reply .actionUnlink hready (exec_actionUnlink s p t _ g)
        (ownUnlink_claimed _ p i g (hopen _) (by rw [openTag_slot]; exact hclaimed))⟩,
    fun hfree => ?_⟩
  have hfree' (kind : Byte) : ((s.openTag p t kind).slot i).claim.map Claim.owner ≠ some p.other := by
    rw [openTag_slot]; exact hfree
  refine ⟨fun hstate => ?_, fun hstate hlink => ?_, fun hstate hlink => ?_, fun hlink => ?_, fun hlink => ?_⟩
  · refine exec_of_reply .actionLink hready (exec_actionLink s p t _ _ g) ?_
    rw [ownLink_of_unclaimed _ p a i g (hopen _) (hfree' _), openTag_action, if_pos hstate]
  · refine exec_of_reply .actionLink hready (exec_actionLink s p t _ _ g) ?_
    rw [ownLink_of_unclaimed _ p a i g (hopen _) (hfree' _), openTag_action, if_neg (not_not_intro hstate), openTag_slot,
      if_pos (Option.isSome_iff_ne_none.2 hlink)]
  · refine exec_of_effect .actionLink _ hready (exec_actionLink s p t _ _ g) ?_ (by rw [setAction_port, setSlot_port])
    rw [ownLink_of_unclaimed _ p a i g (hopen _) (hfree' _), openTag_action, if_neg (not_not_intro hstate), openTag_slot,
      if_neg (by simp [hlink])]
    simp only [openTag_setSlot, openTag_setAction]
  · exact exec_of_reply .actionUnlink hready (exec_actionUnlink s p t _ g)
      (ownUnlink_notLinked _ p i g (hopen _) (hfree' _) (by rw [openTag_slot]; exact hlink))
  · rw [withOutputs_dropSaved_isDrive s _ a i fun o => by rw [setAction_output, setSlot_output]]
    refine exec_of_effect .actionUnlink _ hready (exec_actionUnlink s p t _ g) ?_
      (by rw [dropSaved_port, setAction_port, setSlot_port])
    rw [ownUnlink_unlinks _ p a i g (hopen _) (hfree' _) (by rw [openTag_slot]; exact hlink)]
    simp only [openTag_slot, openTag_setSlot, unlink, openTag_action, openTag_setAction, openTag_dropSaved, setSlot_action]

end Sys2Proof.Machine
end

section
/-! SUPPORT. CLASS.START and CLASS.STOP, the period timers and the external triggers (R50 to R53, R65, R66). -/

namespace Sys2Proof.Machine

theorem exec_classStart (s : State) (p : Port) (t : Tag) (cls : Byte) :
    exec (.classStart p t cls) s = .next (s.request p t .classStart (State.ownStart cls)) := rfl

theorem exec_classStop (s : State) (p : Port) (t : Tag) (cls : Byte) :
    exec (.classStop p t cls) s = .next (s.request p t .classStop (State.ownStop cls)) := rfl

namespace State

/-! ## The timers of a class's points (R50, R66) -/

theorem openTag_withSlots (s : State) (p : Port) (t : Tag) (k : Byte) (f : SlotNo → PointSlot) :
    (s.openTag p t k).withSlots f = (s.withSlots f).openTag p t k := by
  unfold withSlots
  generalize Vector.ofFn f = slots
  cases p <;> rfl

@[simp] theorem withSlots_port (s : State) (f : SlotNo → PointSlot) (p : Port) : (s.withSlots f).port p = s.port p := by
  unfold withSlots
  generalize Vector.ofFn f = slots
  cases p <;> rfl

theorem startTimers_openTag (es : List ListEntry) (s : State) (p : Port) (t : Tag) (k : Byte) :
    (s.openTag p t k).startTimers es = (s.startTimers es).openTag p t k := by
  induction es generalizing s with
  | nil => rfl
  | cons e es ih =>
    have hcons (u : State) : u.startTimers (e :: es) = (u.startTimer e.slot).startTimers es := rfl
    rw [hcons, hcons, startTimer_openTag, ih]

/-- A class that reaches STOPPED, with the timers of its points stopped (R66). -/
theorem reachStopped_eq (s : State) (c : ClassNo) : s.reachStopped c =
    (s.setCls c { s.cls c with
      state := .stopped, periodTimer := none, cursor := 0, removedMark := false, job := none }).withSlots fun i =>
        if ∃ e ∈ (s.cls c).list, e.slot = i then { s.slot i with staleTimer := none } else s.slot i := by
  obtain ⟨hsame, hslots⟩ := stopTimers_spec (s.cls c).list s
  rw [reachStopped, hsame.eq_withSlots _ hslots]
  rfl

theorem reachStopped_openTag (s : State) (p : Port) (t : Tag) (k : Byte) (c : ClassNo) :
    (s.openTag p t k).reachStopped c = (s.reachStopped c).openTag p t k := by
  simp only [reachStopped_eq, openTag_cls, openTag_slot, openTag_setCls, openTag_withSlots]

/-! ## CLASS.START (R51) -/

theorem ownStart_badArgument (s : State) (b : Byte) (h : 4 ≤ b.toNat) : ownStart b s = s.reply .badArgument := by
  rw [ownStart, (classOf_eq_none b).2 h]

theorem ownStart_active (s : State) (c : ClassNo) (h : (s.cls c).state ≠ .stopped) :
    ownStart (byte c.val) s = s.reply .classActive := by
  simp only [ownStart, classOf_byte, if_pos h]

theorem ownStart_starts (s : State) (c : ClassNo) (h : (s.cls c).state = .stopped) : ownStart (byte c.val) s =
    ((s.setCls c { s.cls c with
        state := .waiting, overruns := 0
        periodTimer := if (s.cls c).source = .periodic then some (s.now + (s.cls c).period.toNat * 100)
          else none }).startTimers (s.cls c).list, .done .ok []) := by
  simp only [ownStart, classOf_byte, if_neg (not_not_intro h)]
  rfl

/-! ## CLASS.STOP (R65) -/

theorem ownStop_badArgument (s : State) (b : Byte) (h : 4 ≤ b.toNat) : ownStop b s = s.reply .badArgument := by
  rw [ownStop, (classOf_eq_none b).2 h]

theorem ownStop_stops (s : State) (c : ClassNo) :
    ownStop (byte c.val) s = (s.stopClass c, .done .ok [((s.stopClass c).cls c).state.code]) := by
  simp only [ownStop, classOf_byte]

theorem stopClass_at_once (s : State) (c : ClassNo) (h : (s.cls c).state = .waiting ∨
    ((s.cls c).state = .running ∧ ∃ j, (s.cls c).job = some { job := j, phase := .posted })) :
    s.stopClass c = s.reachStopped c := by
  rcases h with h | ⟨h, j, hj⟩
  · rw [stopClass, h]
  · rw [stopClass, h, hj]

theorem stopClass_converting (s : State) (c : ClassNo) (h : (s.cls c).state = .running) (j : ScanJob)
    (hj : (s.cls c).job = some { job := j, phase := .converting }) :
    s.stopClass c = s.setCls c { s.cls c with state := .stopping } := by
  rw [stopClass, h, hj]

theorem stopClass_again (s : State) (c : ClassNo) (h : (s.cls c).state = .stopping ∨ (s.cls c).state = .stopped) :
    s.stopClass c = s := by
  rcases h with h | h
  · rw [stopClass, h]
  · rw [stopClass, h]

/-- A stop that leaves `u` is answered with the state it leaves there. -/
theorem exec_classStop_of_stops {s u : State} {p : Port} {t : Tag} {c : ClassNo} {code : Byte} (hready : s.Ready p t)
    (hstops : ∀ k : Byte, (s.openTag p t k).stopClass c = u.openTag p t k) (hcode : (u.cls c).state.code = code)
    (hport : u.port p = s.port p) : exec (.classStop p t (byte c.val)) s = .next (u.answered p t 0x32 .ok [code]) := by
  refine exec_of_effect .classStop u hready (exec_classStop s p t _) ?_ hport
  rw [ownStop_stops, hstops, openTag_cls, hcode]

end State

open State in
/-- Settles O24: a start writes the class and starts its points' timers (`startTimers_spec`); a stop reaches STOPPED
(`reachStopped_eq`), becomes STOPPING or leaves the class, by its state and its job. -/
theorem classesStartAndStop : Obligations.ClassesStartAndStop := by
  unfold Obligations.ClassesStartAndStop
  refine ⟨fun s p t hready => ⟨fun b hb => ?_, fun c hactive => ?_, fun c hstopped => ?_⟩,
    fun s p t hready => ⟨fun b hb => ?_, fun c hatOnce => ?_, fun c hrunning ⟨j, hj⟩ => ?_, fun c hstopping => ?_,
      fun c hstopped => ?_⟩⟩
  · exact exec_of_reply .classStart hready (exec_classStart s p t b) (ownStart_badArgument _ b hb)
  · exact exec_of_reply .classStart hready (exec_classStart s p t _)
      (ownStart_active _ c (by rw [openTag_cls]; exact hactive))
  · refine exec_of_effect .classStart _ hready (exec_classStart s p t _) ?_ (by rw [withSlots_port, setCls_port])
    rw [ownStart_starts _ c (by rw [openTag_cls]; exact hstopped)]
    simp only [openTag_cls, openTag_now, openTag_setCls, startTimers_openTag]
    obtain ⟨hsame, hslots⟩ := startTimers_spec (s.cls c).list (s.setCls c { s.cls c with
      state := .waiting, overruns := 0
      periodTimer := if (s.cls c).source = .periodic then some (s.now + (s.cls c).period.toNat * 100) else none })
    rw [hsame.eq_withSlots _ hslots]
    rfl
  · exact exec_of_reply .classStop hready (exec_classStop s p t b) (ownStop_badArgument _ b hb)
  · rw [← reachStopped_eq]
    refine exec_classStop_of_stops hready (fun k => ?_) (by rw [reachStopped_cls]; rfl)
      (by rw [reachStopped_eq, withSlots_port, setCls_port])
    rw [stopClass_at_once _ c (by simpa only [openTag_cls] using hatOnce), reachStopped_openTag]
  · refine exec_classStop_of_stops hready (fun k => ?_) (by rw [cls_setCls_self]; rfl) (setCls_port ..)
    rw [stopClass_converting _ c (by rw [openTag_cls]; exact hrunning) j (by rw [openTag_cls]; exact hj), openTag_cls,
      openTag_setCls]
  · exact exec_classStop_of_stops hready (fun k => stopClass_again _ c (.inl (by rw [openTag_cls]; exact hstopping)))
      (by rw [hstopping]; rfl) rfl
  · exact exec_classStop_of_stops hready (fun k => stopClass_again _ c (.inr (by rw [openTag_cls]; exact hstopped)))
      (by rw [hstopped]; rfl) rfl

namespace State

/-! ## Period timers and trigger lines (R52, R53) -/

/-- What a trigger makes of a class depends on the state by its point records alone. -/
theorem triggered_congr {s u : State} (h : u.slots = s.slots) (k r : ScanClass) : u.Triggered k r ↔ s.Triggered k r := by
  have hslot : ∀ i, u.slot i = s.slot i := fun i => by simp only [slot, h]
  simp only [Triggered, hslot]

/-- Under its law a WAITING class holds no job (R57). -/
theorem job_none_of_waiting {k : ScanClass} (hlegal : k.Legal) (hwaiting : k.state = .waiting) : k.job = none := by
  obtain ⟨-, -, -, hstate⟩ := hlegal
  rw [hwaiting] at hstate
  cases h : k.job with
  | none => rfl
  | some j => simp [h] at hstate

/-- The state in which an elapsed period triggers its class, with the timer one period on (R52). -/
def restartPeriod (s : State) (c : ClassNo) (due : Nat) : State :=
  (s.advanceTo due).setCls c { s.cls c with periodTimer := some (due + (s.cls c).period.toNat * 100) }

/-- The part of a rising edge that one class has (R53). -/
def edgeAt (line : XtLine) (s : State) (c : ClassNo) : State :=
  if (s.cls c).source.isLine line then (s.trigger c).1 else s

theorem edgeAt_frame (line : XtLine) (s : State) (c : ClassNo) : ∃ r, edgeAt line s c = s.setCls c r := by
  unfold edgeAt
  split
  next => exact trigger_frame s c
  next => exact ⟨s.cls c, (setCls_cls_self s c).symm⟩

theorem edgeAt_cls (line : XtLine) (s : State) (c : ClassNo) (h : (s.cls c).state = .waiting → (s.cls c).job = none) :
    if (s.cls c).source.isLine line = true then s.Triggered (s.cls c) ((edgeAt line s c).cls c)
    else (edgeAt line s c).cls c = s.cls c := by
  unfold edgeAt
  split
  next => exact trigger_triggered s c h
  next => rfl

/-- Of the classes listed, those whose source is the line are triggered one after the other; no other class and no other
block changes (R53). -/
theorem foldl_edgeAt (line : XtLine) (cs : List ClassNo) (hnodup : cs.Nodup) (s : State)
    (hidle : ∀ c ∈ cs, (s.cls c).state = .waiting → (s.cls c).job = none) :
    (∀ d, if d ∈ cs ∧ (s.cls d).source.isLine line = true then s.Triggered (s.cls d) ((cs.foldl (edgeAt line) s).cls d)
      else (cs.foldl (edgeAt line) s).cls d = s.cls d) ∧
    cs.foldl (edgeAt line) s = { s with classes := (cs.foldl (edgeAt line) s).classes } := by
  induction cs generalizing s with
  | nil => exact ⟨fun d => by simp, rfl⟩
  | cons c cs ih =>
    obtain ⟨hc, hcs⟩ := List.nodup_cons.1 hnodup
    obtain ⟨r, hr⟩ := edgeAt_frame line s c
    have hne : ∀ d, d ≠ c → (edgeAt line s c).cls d = s.cls d := fun d hd => by
      rw [hr, cls_setCls_ne _ _ _ _ (Ne.symm hd)]
    obtain ⟨hcls, hrest⟩ := ih hcs (edgeAt line s c) fun d hd => by
      rw [hne d fun e => hc (e ▸ hd)]
      exact hidle d (List.mem_cons_of_mem _ hd)
    rw [List.foldl_cons]
    refine ⟨fun d => ?_, hrest.trans (by rw [hr]; rfl)⟩
    by_cases hd : d = c
    · subst hd
      have hlast := hcls d
      rw [if_neg fun h => hc h.1] at hlast
      rw [hlast]
      simpa using edgeAt_cls line s d (hidle d List.mem_cons_self)
    · have hlater := hcls d
      rw [hne d hd, triggered_congr (s := s) (by rw [hr]; rfl)] at hlater
      simpa [hd] using hlater

end State

theorem isLine_iff (src : TriggerSource) (line : XtLine) : src.isLine line = true ↔ src = (match line with
    | .xt0 => TriggerSource.ext0
    | .xt1 => TriggerSource.ext1) := by
  cases src <;> cases line <;> simp [TriggerSource.isLine]

open State in
/-- Settles O26: a trigger writes its class as `trigger_triggered` says and nothing else; an edge is one trigger after the
other (`foldl_edgeAt`). -/
theorem timersAndEdgesTrigger : Obligations.TimersAndEdgesTrigger := by
  unfold Obligations.TimersAndEdgesTrigger
  intro s hrst
  refine ⟨fun c due hdue hsched => ?_, fun line hsched => ?_⟩
  · have hidle := job_none_of_waiting (hsched.2.1 c)
    have hcls : (s.restartPeriod c due).cls c =
        { s.cls c with periodTimer := some (due + (s.cls c).period.toNat * 100) } := cls_setCls_self ..
    obtain ⟨r, hr⟩ := trigger_frame (s.restartPeriod c due) c
    refine ⟨((s.restartPeriod c due).trigger c).1, ?_, ?_, fun d hd => ?_, ?_⟩
    · have hexec : exec (.periodExpiry c) s = execPeriodExpiry c s := rfl
      rw [hexec, execPeriodExpiry, event_runs s _ hrst]
      simp only [hdue]
      rfl
    · have htriggered := trigger_triggered (s.restartPeriod c due) c (by rw [hcls]; exact hidle)
      rw [hcls] at htriggered
      exact (triggered_congr (s := s) (u := s.restartPeriod c due) rfl _ _).1 htriggered
    · rw [hr, cls_setCls_ne _ _ _ _ (Ne.symm hd), restartPeriod, cls_setCls_ne _ _ _ _ (Ne.symm hd)]
      rfl
    · rw [hr]
      rfl
  · obtain ⟨hcls, hrest⟩ := foldl_edgeAt line allClasses (List.nodup_finRange 4) s
      fun c _ => job_none_of_waiting (hsched.2.1 c)
    refine ⟨allClasses.foldl (edgeAt line) s, ?_, fun d => ?_, hrest⟩
    · have hexec : exec (.xtRisingEdge line) s = execXtRisingEdge line s := rfl
      rw [hexec, execXtRisingEdge, event_runs s _ hrst]
      rfl
    · have hd := hcls d
      simp only [allClasses, List.mem_finRange, true_and, isLine_iff] at hd
      exact hd

end Sys2Proof.Machine
end

section
/-! SUPPORT. The direct queue and the arbiter: CONVERT.DIRECT and POINT.SAMPLE queue their jobs, and a grant takes one into
the converter (R76 to R83). -/

namespace Sys2Proof.Machine

theorem exec_convertDirect (s : State) (p : Port) (t : Tag) (channel gain : Byte) :
    exec (.convertDirect p t channel gain) s = .next (s.request p t .convertDirect (State.ownConvert p t channel gain)) :=
  rfl

theorem exec_pointSample (s : State) (p : Port) (t : Tag) (slot gen : Byte) :
    exec (.pointSample p t slot gen) s = .next (s.request p t .pointSample (State.ownSample p t slot gen)) := rfl

namespace State

/-! ## The direct requests (R76 to R79) -/

theorem openTag_enqueue (s : State) (p : Port) (t : Tag) (k : Byte) (j : DirectJob) :
    (s.openTag p t k).enqueue j = (s.enqueue j).openTag p t k := by
  simp only [enqueue, openTag_frontEnd, openTag_setFrontEnd]

theorem ownConvert_badArgument (s : State) (p : Port) (t : Tag) (ch g : Byte) (h : 24 ≤ ch.toNat ∨ 4 ≤ g.toNat) :
    ownConvert p t ch g s = s.reply .badArgument := by
  unfold ownConvert
  rcases h with hch | hg
  · rw [(channelOf_eq_none ch).2 hch]
  · rw [(gainOf_eq_none g).2 hg]
    cases channelOf ch with
    | none => rfl
    | some c => rfl

theorem ownConvert_queues (s : State) (p : Port) (t : Tag) (ch : ChannelNo) (g : Gain) :
    ownConvert p t (byte ch.val) g.code s =
      (s.enqueue { port := p, tag := t, target := .convert ch g, disposition := .answer }, .waits) := by
  simp only [ownConvert, channelOf_byte, gainOf_code]

end State

open State in
/-- Settles O30: both owners queue the job and wait. -/
theorem directRequestsQueueAJob : Obligations.DirectRequestsQueueAJob := by
  unfold Obligations.DirectRequestsQueueAJob
  intro s p t hready
  refine ⟨fun ch g h => ?_, fun ch g => ?_, fun i g hnames => ?_⟩
  · exact exec_of_reply .convertDirect hready (exec_convertDirect s p t ch g) (ownConvert_badArgument _ p t ch g h)
  · refine exec_of_waits .convertDirect (s.enqueue _) hready (exec_convertDirect s p t _ _) ?_
    rw [ownConvert_queues, openTag_enqueue]
  · refine exec_of_waits .pointSample (s.enqueue _) hready (exec_pointSample s p t _ g) ?_
    rw [ownSample, withRef_openTag hnames, openTag_enqueue]

namespace State

/-! ## The class jobs that wait (R56, R82) -/

theorem postedJob_eq_some (s : State) (c : ClassNo) (j : ScanJob) :
    s.postedJob c = some j ↔ (s.cls c).job = some { job := j, phase := .posted } := by
  unfold postedJob
  cases h : (s.cls c).job with
  | none => simp
  | some x =>
    obtain ⟨job, phase⟩ := x
    cases phase <;> simp

theorem lowestPosted_eq_none (s : State) (h : ∀ c q, (s.cls c).job ≠ some { job := q, phase := .posted }) :
    s.lowestPosted = none := by
  rw [lowestPosted, List.findSome?_eq_none_iff]
  intro c _
  rw [Option.map_eq_none_iff, Option.eq_none_iff_forall_ne_some]
  exact fun j hj => h c j ((postedJob_eq_some s c j).1 hj)

/-- The posted job that the arbiter takes is that of the lowest class that holds one (R82). -/
theorem lowestPosted_eq (s : State) (c : ClassNo) (j : ScanJob) (hj : (s.cls c).job = some { job := j, phase := .posted })
    (hbelow : ∀ d < c, ∀ q, (s.cls d).job ≠ some { job := q, phase := .posted }) : s.lowestPosted = some (c, j) := by
  have hposted := (postedJob_eq_some s c j).2 hj
  cases h : s.lowestPosted with
  | none =>
    have hnone := List.findSome?_eq_none_iff.1 h c (List.mem_finRange c)
    rw [hposted] at hnone
    cases hnone
  | some x =>
    obtain ⟨d, q⟩ := x
    obtain ⟨before, e, after, hsplit, he, hnone⟩ := List.findSome?_eq_some_iff.1 h
    obtain ⟨q', hq, hpair⟩ := Option.map_eq_some_iff.1 he
    cases hpair
    have hnot : ¬d < c := fun hlt => hbelow d hlt q ((postedJob_eq_some s d q).1 hq)
    have hmem : c ∈ before ++ d :: after := hsplit ▸ List.mem_finRange c
    rcases List.mem_append.1 hmem with hc | hc
    · have hskipped := hnone c hc
      rw [hposted] at hskipped
      cases hskipped
    · rcases List.mem_cons.1 hc with rfl | hc
      · rw [hposted] at hq
        cases hq
        rfl
      · have hsorted : (before ++ d :: after).Pairwise (· < ·) := hsplit ▸ List.pairwise_lt_finRange 4
        exact absurd ((List.pairwise_cons.1 (List.pairwise_append.1 hsorted).2.1).1 c hc) hnot

/-! ## Entry into the converter (R73) -/

theorem enter_eq (s : State) (j : HeldJob) (ch : ChannelNo) (g : Gain) : s.enter j ch g = s.setFrontEnd (
    if s.frontEnd.openSel = some { channel := ch, gain := g } then {
      converter := .sampling j (s.now + 5), openSel := s.frontEnd.openSel, queue := s.frontEnd.queue }
    else {
      converter := .settling j (s.now + g.settleTime)
      openSel := some { channel := ch, gain := g }, queue := s.frontEnd.queue }) := by
  unfold enter
  split
  next => rfl
  next => rfl

theorem grantNext_busy (s : State) (h : s.frontEnd.converter ≠ .idle) : s.grantNext = s := by
  unfold grantNext
  cases hc : s.frontEnd.converter with
  | idle => exact absurd hc h
  | settling j due => rfl
  | sampling j due => rfl

section Idle
variable (s : State) (hidle : s.frontEnd.converter = .idle)
include hidle

theorem grantNext_direct (j : DirectJob) (rest : List DirectJob) (hqueue : s.frontEnd.queue = j :: rest) :
    s.grantNext = s.grantDirect j := by
  simp only [grantNext, hidle, hqueue]

theorem grantNext_scan (c : ClassNo) (j : ScanJob) (hqueue : s.frontEnd.queue = [])
    (hposted : s.lowestPosted = some (c, j)) : s.grantNext = s.grantScan c j := by
  simp only [grantNext, hidle, hqueue, hposted]

theorem grantNext_nothing (hqueue : s.frontEnd.queue = []) (hposted : s.lowestPosted = none) : s.grantNext = s := by
  simp only [grantNext, hidle, hqueue, hposted]

end Idle

theorem popQueue_eq (s : State) (j : DirectJob) (rest : List DirectJob) (hqueue : s.frontEnd.queue = j :: rest) :
    s.popQueue = s.setFrontEnd { s.frontEnd with queue := rest } := by
  rw [popQueue, hqueue]
  rfl

section Head
variable (s : State) (j : DirectJob) (rest : List DirectJob) (hqueue : s.frontEnd.queue = j :: rest)
include hqueue

theorem grantDirect_convert (ch : ChannelNo) (g : Gain) (h : j.target = .convert ch g) :
    s.grantDirect j = (s.setFrontEnd { s.frontEnd with queue := rest }).enter (.direct j ch g) ch g := by
  simp only [grantDirect, h, popQueue_eq s j rest hqueue]

theorem grantDirect_sample (i : SlotNo) (gen : Generation) (h : j.target = .sample i gen) (hnames : s.names i gen = true) :
    s.grantDirect j = (s.setFrontEnd { s.frontEnd with queue := rest }).enter
      (.direct j (s.slot i).cfg.channel (s.slot i).cfg.gain) (s.slot i).cfg.channel (s.slot i).cfg.gain := by
  simp only [grantDirect, h, popQueue_eq s j rest hqueue, if_pos hnames]

theorem grantDirect_stale (i : SlotNo) (gen : Generation) (h : j.target = .sample i gen) (hnames : s.names i gen = false) :
    s.grantDirect j = (s.setFrontEnd { s.frontEnd with queue := rest }).answerTag j.port j.tag .staleRef [] := by
  simp only [grantDirect, h, popQueue_eq s j rest hqueue, hnames, Bool.false_eq_true, if_false]

end Head

theorem exec_grant (s : State) (hrst : s.rstAsserted = false) : exec .grant s = .next s.grantNext.updateAttention := by
  have hexec : exec .grant s = execGrant s := rfl
  rw [hexec, execGrant, event_runs s _ hrst]

end State

open State in
/-- Settles O31: the head of the direct queue comes before the lowest posted class job (`lowestPosted_eq`), and the job
enters the converter as `enter_eq` says; the end of the settling time is one event. -/
theorem grantSettlesOrSamples : Obligations.GrantSettlesOrSamples := by
  unfold Obligations.GrantSettlesOrSamples
  constructor
  · intro s hrst enters
    have hexec := exec_grant s hrst
    refine ⟨fun hbusy => by rw [hexec, grantNext_busy s hbusy], fun hidle => ⟨fun p t ch g d rest hqueue => ?_,
      fun p t i gen d rest hqueue => ⟨fun hnames => ?_, fun k hstale hwaits => ?_⟩, fun hqueue =>
        ⟨fun c j hj hbelow => ?_, fun hnone => ?_⟩⟩⟩
    · refine hexec.trans ?_
      rw [grantNext_direct s hidle _ rest hqueue, grantDirect_convert s _ rest hqueue ch g rfl, enter_eq]
      rfl
    · refine hexec.trans ?_
      rw [grantNext_direct s hidle _ rest hqueue, grantDirect_sample s _ rest hqueue i gen rfl hnames, enter_eq]
      rfl
    · rw [hexec, grantNext_direct s hidle _ rest hqueue, grantDirect_stale s _ rest hqueue i gen rfl hstale,
        answerTag_of_waits _ _ _ k _ _ (by simpa only [Waits, setFrontEnd_port] using hwaits)]
    · refine hexec.trans ?_
      rw [grantNext_scan s hidle c j hqueue (lowestPosted_eq s c j hj hbelow), grantScan, enter_eq, setCls_frontEnd, hqueue]
      rfl
    · rw [hexec, grantNext_nothing s hidle hqueue (lowestPosted_eq_none s hnone)]
  · intro s hrst
    have hexec : exec .settlingElapsed s = execSettlingElapsed s := rfl
    rw [hexec, execSettlingElapsed, event_runs s _ hrst]
    refine ⟨fun j due hsettling => by simp only [hsettling]; rfl, fun hnot => ?_⟩
    cases hc : s.frontEnd.converter with
    | idle => rfl
    | settling j due => exact absurd hc (hnot j due)
    | sampling j due => rfl

end Sys2Proof.Machine
end

section
/-! SUPPORT. The completion of a direct job: what it answers, and that its tag still waits after the service of the waits
(R74 to R81, R88, R125). -/

namespace Sys2Proof.Machine
namespace State

/-! ## The converter at a completion (R74) -/

/-- The state in which a completed job's sample goes to its requester: the clock has reached the completion, the converter
is IDLE, and a clipped sample has closed the open selection. -/
def freedAt (s : State) (due : Nat) (raw : RawReading) : State :=
  { s with now := max s.now due }.setFrontEnd {
    converter := .idle, queue := s.frontEnd.queue
    openSel := if raw = 0 ∨ raw = 16383 then none else s.frontEnd.openSel }

theorem freeConverter_eq (s : State) (due : Nat) (raw : RawReading) :
    (s.advanceTo due).freeConverter raw = s.freedAt due raw := by
  have hsel : (if clippedFlag raw = true then none else s.frontEnd.openSel) =
      if raw = 0 ∨ raw = 16383 then none else s.frontEnd.openSel := if_congr (clippedFlag_iff raw) rfl rfl
  unfold freedAt
  rw [← hsel]
  rfl

theorem exec_conversionComplete (s : State) (input : Int) (j : HeldJob) (due : Nat) (hrst : s.rstAsserted = false)
    (hconverter : s.frontEnd.converter = .sampling j due) : exec (.conversionComplete input) s =
      .next ((s.freedAt due (j.gain.reading input)).completeJob j (j.gain.reading input)).updateAttention := by
  have hexec : exec (.conversionComplete input) s = execConversionComplete input s := rfl
  rw [hexec, execConversionComplete, event_runs s _ hrst, ← freeConverter_eq]
  simp only [hconverter]

theorem waits_freedAt (s : State) (due : Nat) (raw : RawReading) (p : Port) (t : Tag) (k : Byte) :
    (s.freedAt due raw).Waits p t k ↔ s.Waits p t k := by
  unfold Waits freedAt
  rw [setFrontEnd_port]
  cases p <;> rfl

/-! ## A waiting tag beside the service of the waits (R125, R177) -/

theorem answerTag_waits (s : State) (p q : Port) (t u : Tag) (k : Byte) (code : ResultCode) (data : List Byte)
    (hne : (q, u) ≠ (p, t)) (h : s.Waits p t k) : (s.answerTag q u code data).Waits p t k := by
  refine ⟨?_, by rw [answerTag_openTags_tag]; exact h.2⟩
  unfold answerTag
  cases s.waitingTag q u with
  | none => exact h.1
  | some e =>
    simp only [port_setPort]
    split
    next hqp =>
      subst hqp
      have hu : t ≠ u := fun htu => hne (by rw [htu])
      exact List.mem_map.2 ⟨_, h.1, by simp [hu]⟩
    next => exact h.1

theorem serveWait_waits (s : State) (w : WaitRec) (p : Port) (t : Tag) (k : Byte) (hne : (w.port, w.tag) ≠ (p, t))
    (h : s.Waits p t k) : (s.serveWait w).Waits p t k := by
  by_cases hd : ∀ i, s.deliverable w.port i = none
  · rw [serveWait_idle s w hd]
    exact h
  · obtain ⟨i, n, -, he⟩ := serveWait_delivers s w (not_forall.1 hd)
    rw [he]
    refine answerTag_waits _ p w.port t w.tag k _ _ hne ?_
    simpa only [Waits, dropWait, setWaits_port, setNotice_port] using h

/-- A waiting request that is no NOTICE.WAIT still waits when the waits have been served. -/
theorem serveWaits_waits (s : State) (p : Port) (t : Tag) (k : Byte) (hne : ∀ w ∈ s.waits, (w.port, w.tag) ≠ (p, t))
    (h : s.Waits p t k) : s.serveWaits.Waits p t k := by
  have hfold (ws : List WaitRec) (u : State) (hne : ∀ w ∈ ws, (w.port, w.tag) ≠ (p, t)) (h : u.Waits p t k) :
      (ws.foldl serveWait u).Waits p t k := by
    induction ws generalizing u with
    | nil => exact h
    | cons w ws ih =>
      obtain ⟨hw, hws⟩ := List.forall_mem_cons.1 hne
      exact ih _ hws (serveWait_waits u w p t k hw h)
  exact hfold s.waits s hne h

/-- Under the law of the waiting requests, the request of the converting job is no NOTICE.WAIT (R177). -/
theorem waits_ne_of_converting {s : State} (hw : WaitingLaw s) {j : DirectJob} {ch : ChannelNo} {g : Gain}
    (hheld : s.frontEnd.converter.held = some (.direct j ch g)) (hanswer : j.disposition = .answer) :
    ∀ w ∈ s.waits, (w.port, w.tag) ≠ (j.port, j.tag) := by
  obtain ⟨-, hnodup, -⟩ := hw
  intro w hw he
  refine (List.nodup_append.1 hnodup).2.2 (j.port, j.tag) ?_ (w.port, w.tag) (List.mem_map.2 ⟨w, hw, rfl⟩) he.symm
  refine List.mem_map.2 ⟨j, List.mem_append_right _ ?_, rfl⟩
  rw [convertingJob, hheld]
  simp only [hanswer, if_true, List.mem_singleton]

/-! ## What an applied sample leaves (R89, R90) -/

theorem appliesTo_applySample (s : State) (i : SlotNo) (raw : RawReading) : s.AppliesTo i raw (s.applySample i raw) := by
  obtain ⟨hsame, hother, l, cond, cand, n, hself, hcond⟩ := applySample_points s i raw
  obtain ⟨-, -, -, -, hkeys, -⟩ := hsame
  unfold AppliesTo
  rw [hself]
  refine ⟨rfl, rfl, rfl, rfl, rfl, rfl, rfl, rfl, rfl, hcond, fun j hj => ?_, hkeys⟩
  obtain ⟨k, hk⟩ := hother j hj
  rw [hk]

/-- What an application leaves is read from the point records and the key map alone. -/
theorem AppliesTo.congr {s u v : State} {i : SlotNo} {raw : RawReading} (h : s.AppliesTo i raw u)
    (hslots : ∀ j, v.slot j = u.slot j) (hkeys : v.keyMap = u.keyMap) : s.AppliesTo i raw v := by
  unfold AppliesTo at *
  simp only [hslots, hkeys]
  exact h

theorem serveWaits_slot (s : State) (i : SlotNo) : s.serveWaits.slot i = s.slot i := by
  obtain ⟨-, -, -, -, hslots, -⟩ := serveWaits_same s
  simp only [slot, hslots]

/-! ## The completion of a direct job (R75, R78, R81) -/

theorem sampleBytes_applied (s u : State) (i : SlotNo) (raw : RawReading) (h : s.AppliesTo i raw u) :
    u.sampleBytes i = [byte (raw.toNat / 256), byte (raw.toNat % 256)] ++ bytes32 (scaleValue (s.slot i).cfg.scale raw) ++
      [if raw = 0 ∨ raw = 16383 then 2 else 1, (u.slot i).condition.code] := by
  obtain ⟨hraw, hvalue, hquality, -⟩ := h
  have hcode : (if raw = 0 ∨ raw = 16383 then Quality.clipped else .good).code =
      if raw = 0 ∨ raw = 16383 then 2 else 1 := by
    split <;> rfl
  rw [sampleBytes, hraw, hvalue, hquality, rawBytes_eq, hcode]

theorem completeDirect_discard (s : State) (j : DirectJob) (ch : ChannelNo) (g : Gain) (raw : RawReading)
    (h : j.disposition = .discard) : s.completeDirect j ch g raw = s := by
  rw [completeDirect, h]

theorem completeDirect_convert (s : State) (j : DirectJob) (ch : ChannelNo) (g : Gain) (raw : RawReading)
    (h : j.disposition = .answer) {ch' : ChannelNo} {g' : Gain} (htarget : j.target = .convert ch' g') :
    s.completeDirect j ch g raw = s.answerTag j.port j.tag .ok [byte (raw.toNat / 256), byte (raw.toNat % 256),
      if raw = 0 ∨ raw = 16383 then 1 else 0] := by
  have hclip : yesNoByte (clippedFlag raw) = if raw = 0 ∨ raw = 16383 then 1 else 0 :=
    if_congr (clippedFlag_iff raw) rfl rfl
  simp only [completeDirect, h, htarget, rawBytes_eq, hclip]
  rfl

theorem completeDirect_sample (s : State) (j : DirectJob) (ch : ChannelNo) (g : Gain) (raw : RawReading)
    (h : j.disposition = .answer) {i : SlotNo} {gen : Generation} (htarget : j.target = .sample i gen) :
    s.completeDirect j ch g raw = s.completeSample j { slot := i, gen := gen, channel := ch, gain := g } raw := by
  simp only [completeDirect, h, htarget]

theorem completeSample_stale (s : State) (j : DirectJob) (scan : ScanJob) (raw : RawReading) (k : Byte)
    (hwaits : s.Waits j.port j.tag k) (h : ¬s.sampleApplies scan = true) :
    s.completeSample j scan raw = s.served j.port j.tag k .staleRef [] := by
  rw [completeSample, if_neg h, answerTag_of_waits _ _ _ k _ _ hwaits]

/-- The applied sample of a waiting POINT.SAMPLE: the waits are served, and it is answered with what the point holds. -/
theorem completeSample_applied (s : State) (j : DirectJob) (scan : ScanJob) (raw : RawReading) (k : Byte)
    (hwaits : s.Waits j.port j.tag k) (hne : ∀ w ∈ s.waits, (w.port, w.tag) ≠ (j.port, j.tag))
    (h : s.sampleApplies scan = true) : s.completeSample j scan raw =
      (s.applySample scan.slot raw).serveWaits.served j.port j.tag k .ok
        ([byte (raw.toNat / 256), byte (raw.toNat % 256)] ++ bytes32 (scaleValue (s.slot scan.slot).cfg.scale raw) ++
          [if raw = 0 ∨ raw = 16383 then 2 else 1,
            ((s.applySample scan.slot raw).serveWaits.slot scan.slot).condition.code]) := by
  obtain ⟨-, -, -, -, -, -, -, hwaitsame, hportH, hportL⟩ := (applySample_points s scan.slot raw).1
  have hport : (s.applySample scan.slot raw).port j.port = s.port j.port := by cases j.port <;> assumption
  have hstill : (s.applySample scan.slot raw).serveWaits.Waits j.port j.tag k :=
    serveWaits_waits _ _ _ k (by rw [hwaitsame]; exact hne) (by simpa only [Waits, hport] using hwaits)
  rw [completeSample, if_pos h, sampleBytes_applied s _ _ raw (appliesTo_applySample s scan.slot raw),
    answerTag_of_waits _ _ _ k _ _ hstill, serveWaits_slot]

theorem sampleApplies_freedAt (s : State) (due : Nat) (raw : RawReading) (scan : ScanJob) :
    (s.freedAt due raw).sampleApplies scan = s.sampleApplies scan := rfl

theorem freedAt_slot (s : State) (due : Nat) (raw : RawReading) (i : SlotNo) : (s.freedAt due raw).slot i = s.slot i := rfl

theorem freedAt_keyMap (s : State) (due : Nat) (raw : RawReading) : (s.freedAt due raw).keyMap = s.keyMap := rfl

/-- What an application leaves is told from the point records before it, which the converter is no part of. -/
theorem appliesTo_of_freedAt {s u : State} {due : Nat} {r : RawReading} {i : SlotNo} {raw : RawReading}
    (h : (s.freedAt due r).AppliesTo i raw u) : s.AppliesTo i raw u := by
  unfold AppliesTo at *
  simpa only [freedAt_slot, freedAt_keyMap] using h

end State

open State in
/-- Settles O32: the converter is freed (`exec_conversionComplete`), and the job is discarded, answered with its reading or
handed to the evaluator; its tag still waits when the waits have been served (`serveWaits_waits`). -/
theorem directCompletionsAnswer : Obligations.DirectCompletionsAnswer := by
  unfold Obligations.DirectCompletionsAnswer
  constructor
  · intro s input j ch g due hrst hconverter
    have hexec := exec_conversionComplete s input (.direct j ch g) due hrst hconverter
    rw [show (HeldJob.direct j ch g).gain = g from rfl, completeJob] at hexec
    generalize g.reading input = raw at hexec ⊢
    intro _ freed
    refine ⟨fun k ch' g' htarget hanswer hwaits => ?_, fun hdiscard => ?_⟩
    · rw [completeDirect_convert _ j ch g _ hanswer htarget,
        answerTag_of_waits _ _ _ k _ _ ((waits_freedAt ..).2 hwaits)] at hexec
      exact hexec
    · rw [completeDirect_discard _ j ch g _ hdiscard] at hexec
      exact hexec
  · intro s input j i gen ch g due k hrst hwaiting hconverter htarget hanswer hwaits
    have hexec := exec_conversionComplete s input (.direct j ch g) due hrst hconverter
    rw [show (HeldJob.direct j ch g).gain = g from rfl, completeJob, completeDirect_sample _ j ch g _ hanswer htarget]
      at hexec
    generalize g.reading input = raw at hexec ⊢
    intro _ freed
    have happlies := sampleApplies_iff s { slot := i, gen := gen, channel := ch, gain := g }
    have hfreed : (s.freedAt due raw).Waits j.port j.tag k := (waits_freedAt s due raw j.port j.tag k).2 hwaits
    refine ⟨fun hstale => ?_, fun hnames hchannel hgain => ?_⟩
    · have hnot : ¬s.sampleApplies { slot := i, gen := gen, channel := ch, gain := g } = true := by
        rw [happlies]
        rintro ⟨hnames, hchannel, hgain⟩
        rcases hstale with h | h | h
        exacts [by simp [h] at hnames, h hchannel, h hgain]
      rw [completeSample_stale _ _ _ _ k hfreed (by rw [sampleApplies_freedAt]; exact hnot)] at hexec
      exact hexec
    · intro u
      obtain ⟨-, -, -, -, -, hclasses, hfrontEnd, -⟩ := (applySample_points (s.freedAt due raw) i raw).1
      obtain ⟨-, -, -, -, -, ukeys, uclasses, ufrontEnd, -⟩ := serveWaits_same ((s.freedAt due raw).applySample i raw)
      rw [completeSample_applied _ j _ raw k hfreed
        (waits_ne_of_converting hwaiting (by rw [hconverter]; rfl) hanswer)
        (by rw [sampleApplies_freedAt]; exact happlies.2 ⟨hnames, hchannel, hgain⟩)] at hexec
      exact ⟨hexec, appliesTo_of_freedAt ((appliesTo_applySample _ i raw).congr (serveWaits_slot _) ukeys),
        ufrontEnd.trans hfrontEnd, uclasses.trans hclasses⟩

end Sys2Proof.Machine
end

section
/-! SUPPORT. The completion of a class job: the sample goes to the evaluator and the pass moves on (R58, R59, R63, R65, R66,
R88). -/

namespace Sys2Proof.Machine
namespace State

/-- A write of every point record that writes them as they are. -/
theorem withSlots_slot (s : State) : s.withSlots s.slot = s :=
  ((SameButSlots.refl s).eq_withSlots s.slot fun _ => rfl).symm

@[simp] theorem withSlots_keyMap (s : State) (f : SlotNo → PointSlot) : (s.withSlots f).keyMap = s.keyMap := by
  simp only [withSlots]
@[simp] theorem withSlots_notices (s : State) (f : SlotNo → PointSlot) : (s.withSlots f).notices = s.notices := by
  simp only [withSlots]
@[simp] theorem withSlots_waits (s : State) (f : SlotNo → PointSlot) : (s.withSlots f).waits = s.waits := by
  simp only [withSlots]
@[simp] theorem withSlots_notice (s : State) (f : SlotNo → PointSlot) (i : SlotNo) :
    (s.withSlots f).notice i = s.notice i := by
  simp only [withSlots, notice]

/-- The place of the cursor when a class's job ends (R58, R63). -/
def cursorAfter (s : State) (c : ClassNo) : Nat :=
  if (s.cls c).removedMark then (s.cls c).cursor else (s.cls c).cursor + 1

/-! ## The end of a class's job (R58) -/

section Finish
variable (s : State) (c : ClassNo)

theorem finishJob_completes (hrunning : (s.cls c).state = .running) (hend : (s.cls c).list.length ≤ s.cursorAfter c) :
    s.finishJob c = s.setCls c { s.cls c with
      state := .waiting, cursor := s.cursorAfter c, job := none, removedMark := false } := by
  rw [finishJob_eq, if_neg (by rw [hrunning]; exact ClassState.noConfusion)]
  rw [continuePass_completes _ c (by rw [cls_setCls_self]; exact hrunning) (by rw [cls_setCls_self]; rfl)
    (by rw [cls_setCls_self]; exact hend), cls_setCls_self, setCls_setCls]
  rfl

theorem finishJob_posts (hrunning : (s.cls c).state = .running) (e : ListEntry)
    (hnext : (s.cls c).list[s.cursorAfter c]? = some e) : s.finishJob c = s.setCls c { s.cls c with
      cursor := s.cursorAfter c, removedMark := false, job := some { phase := .posted, job := s.jobFor e } } := by
  rw [finishJob_eq, if_neg (by rw [hrunning]; exact ClassState.noConfusion)]
  rw [continuePass_posts _ c e (by rw [cls_setCls_self]; exact hrunning) (by rw [cls_setCls_self]; rfl)
    (by rw [cls_setCls_self]; exact hnext), cls_setCls_self, setCls_setCls]
  rfl

theorem finishJob_stops (hstopping : (s.cls c).state = .stopping) : s.finishJob c =
    (s.setCls c { s.cls c with
      state := .stopped, periodTimer := none, cursor := 0, removedMark := false, job := none }).withSlots fun i =>
        if ∃ e ∈ (s.cls c).list, e.slot = i then { s.slot i with staleTimer := none } else s.slot i := by
  rw [finishJob_eq, if_pos hstopping, reachStopped_eq, cls_setCls_self, setCls_setCls]
  rfl

/-- The end of a class's job writes its class and, where the class stops, stale timers. -/
theorem finishJob_frame : ∃ r f, s.finishJob c = (s.setCls c r).withSlots f ∧
    (∀ i, { f i with staleTimer := (s.slot i).staleTimer } = s.slot i) ∧
    ((s.cls c).state = .running → ∀ i, f i = s.slot i) := by
  by_cases hstopping : (s.cls c).state = .stopping
  · refine ⟨_, _, finishJob_stops s c hstopping, fun i => ?_, fun hrunning => ?_⟩
    · split <;> rfl
    · rw [hrunning] at hstopping
      cases hstopping
  · obtain ⟨r, hr, -⟩ := continuePass_frame (s.setCls c (s.jobEnded c)) c
    refine ⟨r, s.slot, ?_, fun _ => rfl, fun _ _ => rfl⟩
    rw [finishJob_eq, if_neg hstopping, hr, setCls_setCls]
    exact (withSlots_slot (s.setCls c r)).symm

end Finish

/-! ## The evaluator's part (R88) -/

theorem evaluate_cls (s : State) (j : ScanJob) (raw : RawReading) (c : ClassNo) : (s.evaluate j raw).cls c = s.cls c := by
  obtain ⟨-, -, -, -, -, hclasses, -⟩ := evaluate_points s j raw
  simp only [cls, hclasses]

/-- No sample changes a configuration (R90). -/
theorem evaluate_cfg (s : State) (j : ScanJob) (raw : RawReading) (i : SlotNo) :
    ((s.evaluate j raw).slot i).cfg = (s.slot i).cfg := by
  unfold evaluate
  split
  next =>
    obtain ⟨-, -, -, -, hcfg, -, -, -, -, -, hother, -⟩ := appliesTo_applySample s j.slot raw
    by_cases hi : i = j.slot
    · rw [hi, hcfg]
    · have hrest := hother i hi
      rw [← hrest]
  next => rfl

theorem evaluate_jobFor (s : State) (j : ScanJob) (raw : RawReading) (e : ListEntry) :
    (s.evaluate j raw).jobFor e = s.jobFor e := by
  simp only [jobFor, evaluate_cfg]

theorem evaluate_eq (s : State) (j : ScanJob) (raw : RawReading) : s.evaluate j raw =
    if s.names j.slot j.gen = true ∧ (s.slot j.slot).cfg.channel = j.channel ∧ (s.slot j.slot).cfg.gain = j.gain then
      s.applySample j.slot raw
    else s := by
  unfold evaluate
  exact if_congr (sampleApplies_iff s j) rfl rfl

/-! ## What stays when nothing is applied (R88, R121) -/

/-- A write of a class and of stale timers makes no notice deliverable. -/
theorem deliverable_of_timers {s u : State} {p : Port} {i : SlotNo} (hnotice : u.notice i = s.notice i)
    (hport : u.port p = s.port p) (hslot : { u.slot i with staleTimer := (s.slot i).staleTimer } = s.slot i) :
    u.deliverable p i = s.deliverable p i := by
  have hroute : (u.slot i).cfg.route = (s.slot i).cfg.route := by rw [← hslot]
  exact deliverable_congr u s p i hnotice hroute (by rw [hport]) (by rw [hport])

theorem freedAt_cls (s : State) (due : Nat) (raw : RawReading) (c : ClassNo) : (s.freedAt due raw).cls c = s.cls c := rfl

/-- The class of a completed job as the evaluator leaves it. -/
theorem evaluate_freedAt_cls (s : State) (due : Nat) (raw : RawReading) (j : ScanJob) (c : ClassNo) :
    ((s.freedAt due raw).evaluate j raw).cls c = s.cls c := by
  rw [evaluate_cls, freedAt_cls]

theorem cursorAfter_evaluate (s : State) (due : Nat) (raw : RawReading) (j : ScanJob) (c : ClassNo) :
    ((s.freedAt due raw).evaluate j raw).cursorAfter c = s.cursorAfter c := by
  simp only [cursorAfter, evaluate_freedAt_cls]

/-- The state that the completion of a class job leaves before the attention lines are set (R58, R74, R125). -/
def classCompleted (s : State) (due : Nat) (raw : RawReading) (j : ScanJob) (c : ClassNo) : State :=
  (((s.freedAt due raw).evaluate j raw).finishJob c).serveWaits

section Completed
variable (s : State) (due : Nat) (raw : RawReading) (j : ScanJob) (c : ClassNo)

theorem classCompleted_frontEnd : (s.classCompleted due raw j c).frontEnd = (s.freedAt due raw).frontEnd := by
  obtain ⟨-, -, -, -, -, -, -, hserved, -⟩ := serveWaits_same (((s.freedAt due raw).evaluate j raw).finishJob c)
  rw [classCompleted, hserved, finishJob_frontEnd, (evaluate_points _ j raw).frontEnd]

theorem classCompleted_cls_ne (d : ClassNo) (h : d ≠ c) : (s.classCompleted due raw j c).cls d = s.cls d := by
  obtain ⟨-, -, -, -, -, -, hclasses, -⟩ := serveWaits_same (((s.freedAt due raw).evaluate j raw).finishJob c)
  have hcls : (s.classCompleted due raw j c).cls d = (((s.freedAt due raw).evaluate j raw).finishJob c).cls d := by
    simp only [cls, classCompleted, hclasses]
  rw [hcls, finishJob_cls_ne _ c d (Ne.symm h), evaluate_freedAt_cls]

/-- In a RUNNING class an applied sample leaves what the evaluator made of it. -/
theorem classCompleted_applies (happlies : s.sampleApplies j = true) (hrunning : (s.cls c).state = .running) :
    s.AppliesTo j.slot raw (s.classCompleted due raw j c) := by
  have hv : (s.freedAt due raw).evaluate j raw = (s.freedAt due raw).applySample j.slot raw := if_pos happlies
  obtain ⟨r, f, hfinish, -, hsame⟩ := finishJob_frame ((s.freedAt due raw).evaluate j raw) c
  have hf := hsame (by rw [evaluate_freedAt_cls]; exact hrunning)
  obtain ⟨-, -, -, -, -, hkeys, -⟩ := serveWaits_same (((s.freedAt due raw).evaluate j raw).finishJob c)
  refine (appliesTo_of_freedAt (appliesTo_applySample (s.freedAt due raw) j.slot raw)).congr (fun i => ?_) ?_
  · rw [classCompleted, serveWaits_slot, hfinish, slot_withSlots, hf, hv]
  · obtain ⟨-, -, -, -, hkeep, -⟩ := evaluate_points (s.freedAt due raw) j raw
    rw [classCompleted, hkeys, hfinish, withSlots_keyMap, setCls_keyMap, hv]

/-- A discarded sample leaves the class's write and, where the class stops, its timers. -/
theorem classCompleted_discarded (hnot : ¬s.sampleApplies j = true) :
    ((s.cls c).state = .running → ∀ i, (s.classCompleted due raw j c).slot i = s.slot i) ∧
      (∀ i, { (s.classCompleted due raw j c).slot i with staleTimer := (s.slot i).staleTimer } = s.slot i) ∧
      (s.classCompleted due raw j c).raiseSeq = s.raiseSeq ∧ (s.classCompleted due raw j c).actions = s.actions ∧
      (s.classCompleted due raw j c).outputs = s.outputs ∧
      (ServedLaw s → (s.classCompleted due raw j c).notices = s.notices ∧ (s.classCompleted due raw j c).waits = s.waits ∧
        ∀ p, (s.classCompleted due raw j c).port p = s.port p) := by
  have hv : (s.freedAt due raw).evaluate j raw = s.freedAt due raw := if_neg hnot
  obtain ⟨r, f, hfinish, htimers, hsame⟩ := finishJob_frame (s.freedAt due raw) c
  have hport : ∀ p, (((s.freedAt due raw).setCls c r).withSlots f).port p = s.port p := fun p => by
    rw [withSlots_port, setCls_port]
    cases p <;> rfl
  have hu : s.classCompleted due raw j c = (((s.freedAt due raw).setCls c r).withSlots f).serveWaits := by
    rw [classCompleted, hv, hfinish]
  have hslot : ∀ i, (s.classCompleted due raw j c).slot i = f i := fun i => by
    rw [hu, serveWaits_slot, slot_withSlots]
  obtain ⟨-, -, -, -, -, -, -, -, hseq, hactions, houtputs⟩ :=
    serveWaits_same (((s.freedAt due raw).setCls c r).withSlots f)
  refine ⟨fun hrunning i => (hslot i).trans (hsame hrunning i), fun i => ?_, by rw [hu]; exact hseq,
    by rw [hu]; exact hactions, by rw [hu]; exact houtputs, fun hserved => ?_⟩
  · rw [hslot]
    exact htimers i
  · have hidle : (((s.freedAt due raw).setCls c r).withSlots f).serveWaits =
        ((s.freedAt due raw).setCls c r).withSlots f := by
      refine serveWaits_idle _ fun w hw i => ?_
      have hsame : (((s.freedAt due raw).setCls c r).withSlots f).deliverable w.port i = s.deliverable w.port i :=
        deliverable_of_timers (by rw [withSlots_notice, setCls_notice]; rfl) (hport _)
          (by rw [slot_withSlots]; exact htimers i)
      exact hsame.trans ((anyDeliverable_eq_false s w.port).1 (hserved w hw) i)
    rw [hu, hidle, withSlots_notices, withSlots_waits]
    exact ⟨rfl, rfl, hport⟩

end Completed

end State

open State in
/-- Settles O33: the pass moves on by the equations of `finishJob`; the last clause is about the state they leave,
`classCompleted`. -/
theorem classCompletionsMoveThePass : Obligations.ClassCompletionsMoveThePass := by
  unfold Obligations.ClassCompletionsMoveThePass
  intro s input c j due hrst hconverter
  have hexec := exec_conversionComplete s input (.scan c j) due hrst hconverter
  rw [show (HeldJob.scan c j).gain = j.gain from rfl, completeJob] at hexec
  generalize j.gain.reading input = raw at hexec ⊢
  intro _ freed applies v cursor
  have hv : (s.freedAt due raw).evaluate j raw = v := evaluate_eq ..
  have happlies : s.sampleApplies j = true ↔ applies := sampleApplies_iff s j
  refine ⟨fun h => ?_, fun hrunning hend => ?_, fun e hrunning hnext => ?_, fun hstopping => ?_, fun _ =>
    ⟨s.classCompleted due raw j c, hexec, classCompleted_frontEnd s due raw j c, classCompleted_cls_ne s due raw j c,
      fun h => classCompleted_applies s due raw j c (happlies.2 h),
      fun h => classCompleted_discarded s due raw j c (mt happlies.1 h)⟩⟩
  · have hv' : v = (s.freedAt due raw).applySample j.slot raw := if_pos h
    rw [hv']
    exact appliesTo_of_freedAt (appliesTo_applySample _ j.slot raw)
  · rw [finishJob_completes _ c (by rw [evaluate_freedAt_cls]; exact hrunning)
      (by rw [evaluate_freedAt_cls, cursorAfter_evaluate]; exact hend), evaluate_freedAt_cls, cursorAfter_evaluate, hv] at hexec
    exact hexec
  · rw [finishJob_posts _ c (by rw [evaluate_freedAt_cls]; exact hrunning) e
      (by rw [evaluate_freedAt_cls, cursorAfter_evaluate]; exact hnext), evaluate_freedAt_cls, cursorAfter_evaluate,
      evaluate_jobFor, hv] at hexec
    exact hexec
  · rw [finishJob_stops _ c (by rw [evaluate_freedAt_cls]; exact hstopping), evaluate_freedAt_cls, hv] at hexec
    exact hexec

end Sys2Proof.Machine
end

section
/-! SUPPORT. The reading of an input and the scaling of a value, on exact integers (R6, R70). -/

namespace Sys2Proof.Machine

/-- The reading of an input as a number, with the division that `omega` knows. -/
theorem Gain.reading_eq (g : Gain) (x : Int) :
    ((g.reading x).toNat : Int) = max 0 (min 16383 (x * g.factor / 64)) := by
  rw [Gain.reading_toNat, Int.fdiv_eq_ediv_of_nonneg _ (by decide)]

theorem Gain.reading_eq_last (g : Gain) (x : Int) : g.reading x = 16383 ↔ 16383 * 64 ≤ x * g.factor := by
  have h := g.reading_eq x
  have hlast : g.reading x = 16383 ↔ (g.reading x).toNat = 16383 := by rw [← BitVec.toNat_inj]; rfl
  rw [hlast]
  omega

theorem Gain.reading_of_nonpos (g : Gain) (x : Int) (hx : x ≤ 0) : g.reading x = 0 := by
  have h := g.reading_eq x
  have hproduct : x * g.factor ≤ 0 := Int.mul_nonpos_of_nonpos_of_nonneg hx g.factor_pos.le
  apply BitVec.eq_of_toNat_eq
  have hzero : (0 : RawReading).toNat = 0 := rfl
  rw [hzero]
  omega

theorem Gain.reading_mono (g : Gain) {x y : Int} (hxy : x ≤ y) : (g.reading x).toNat ≤ (g.reading y).toNat := by
  have hx := g.reading_eq x
  have hy := g.reading_eq y
  have hproduct : x * g.factor ≤ y * g.factor := Int.mul_le_mul_of_nonneg_right hxy g.factor_pos.le
  omega

/-- The inputs of whole readings at a gain. -/
theorem Gain.reading_whole (g : Gain) (n : Nat) : ((g.reading (64 * n)).toNat : Int) = min 16383 (g.factor * n) := by
  have h := g.reading_eq (64 * n)
  have hproduct : (64 * n : Int) * g.factor = 64 * (g.factor * n) := by ring
  have hpos : 0 ≤ g.factor * (n : Int) := Int.mul_nonneg g.factor_pos.le (Int.natCast_nonneg n)
  rw [hproduct] at h
  omega

/-- Every reading in the range is one of some input. -/
theorem Gain.reading_surjective (g : Gain) (raw : RawReading) : ∃ x, g.reading x = raw := by
  have hrange : raw.toNat ≤ 16383 := Nat.le_of_lt_succ raw.isLt
  obtain ⟨x, hx⟩ : ∃ x : Int, x * g.factor = 64 * raw.toNat := by
    cases g with
    | g1 => exact ⟨64 * raw.toNat, by simp only [Gain.factor]; omega⟩
    | g4 => exact ⟨16 * raw.toNat, by simp only [Gain.factor]; omega⟩
    | g16 => exact ⟨4 * raw.toNat, by simp only [Gain.factor]; omega⟩
    | g64 => exact ⟨raw.toNat, by simp only [Gain.factor]; omega⟩
  refine ⟨x, BitVec.eq_of_toNat_eq ?_⟩
  have h := g.reading_eq x
  rw [hx] at h
  omega

/-- Saturation to the signed 32-bit range (R6). -/
theorem saturate32_toInt (x : Int) : (saturate32 x).toInt = max (-2147483648) (min 2147483647 x) := by
  have hself (y : Int) (hlow : -2147483648 ≤ y) (hhigh : y ≤ 2147483647) : (BitVec.ofInt 32 y).toInt = y :=
    BitVec.toInt_ofInt_eq_self (by decide) (by omega) (by omega)
  unfold saturate32
  split
  next => rw [hself _ (by decide) (by decide)]; omega
  next =>
    split
    next => rw [hself _ (by decide) (by decide)]; omega
    next => rw [hself x (by omega) (by omega)]; omega

/-- Settles O34: a reading is the amplified input divided by 64 and held in the range (`Gain.reading_eq`), and a scaled
value is the exact quotient saturated (`saturate32_toInt`). -/
theorem valueIsScaledExactly : Obligations.ValueIsScaledExactly := by
  unfold Obligations.ValueIsScaledExactly
  refine ⟨fun g => ⟨fun x y hxy => g.reading_mono hxy, fun n => ?_, fun x => ⟨?_, g.reading_of_nonpos x⟩,
    g.reading_surjective⟩, fun x => ?_, fun raw => ?_, fun sc raw => ?_⟩
  · have h := g.reading_whole n
    cases g <;> (simp only [Gain.factor] at h ⊢; omega)
  · have h := g.reading_eq_last x
    cases g <;> exact h
  · have h1 := Gain.g1.reading_eq x
    have h4 := Gain.g4.reading_eq x
    have hlast := Gain.g4.reading_eq_last x
    simp only [Gain.factor] at h1 h4 hlast
    rw [hlast]
    omega
  · have hraw := raw.isLt
    rw [scaleValue, BitVec.toNat_setWidth]
    omega
  · refine ⟨(raw.toNat * sc.span.toInt) / 16384, (raw.toNat * sc.span.toInt) % 16384, by omega, by omega, by omega, ?_⟩
    rw [scaleValue, saturate32_toInt, Int.fdiv_eq_ediv_of_nonneg _ (by decide)]

end Sys2Proof.Machine
end

section
/-! SUPPORT. COLLECT, whole and in parts: what each part drives and removes, and that parts with nothing between them are
one (R164, R172, R185). -/

namespace Sys2Proof.Machine
namespace State

/-! ## The pieces of a part (R172) -/

section Pieces
variable (s : State) (p : Port)

theorem drive_drive (b b' : List Byte) (l l' : CollectPhase) :
    (s.drive p b l).drive p b' l' = s.drive p (b ++ b') l' := by
  simp only [drive, port_setPort_self, setPort_setPort, List.append_assoc]

theorem drive_collecting (b : List Byte) (l : CollectPhase) : ((s.drive p b l).port p).collecting = some l := by
  simp only [drive, port_setPort_self]

theorem removeChosen_drive (c : Option (Bool × Answer)) (b : List Byte) (l : CollectPhase) :
    (s.drive p b l).removeChosen p c = (s.removeChosen p c).drive p b l := by
  rcases c with _ | ⟨_ | _, a⟩
  · rfl
  · simp only [removeChosen, drive, port_setPort_self, setPort_setPort]
  · simp only [removeChosen, drive, port_setPort_self, setPort_setPort]

/-- The traffic of a port is no part of what is deliverable to it (R119). -/
theorem deliverableCount_setPort (r : PortRec) (hthreshold : r.threshold = (s.port p).threshold)
    (hsession : r.session = (s.port p).session) : (s.setPort p r).deliverableCount p = s.deliverableCount p := by
  have hsame (i : SlotNo) : (s.setPort p r).deliverable p i = s.deliverable p i :=
    deliverable_congr _ _ p i (by simp) (by simp) (by rw [port_setPort_self, hthreshold])
      (by rw [port_setPort_self, hsession])
  simp only [deliverableCount, hsame]

theorem summary_drive (b : List Byte) (l : CollectPhase) : (s.drive p b l).summary p = s.summary p := by
  have hcount := deliverableCount_setPort s p
    { s.port p with clockedOut := (s.port p).clockedOut ++ b, collecting := some l } rfl rfl
  simp only [summary, drive, hcount, port_setPort_self]

/-- The bytes driven on either side of a cut in the bytes to send. -/
theorem take_append_clockOut (rest two : List Byte) (n m : Nat) (h : n ≤ rest.length) :
    rest.take n ++ clockOut (rest.drop n ++ two) m = clockOut (rest ++ two) (n + m) := by
  have hfirst : rest.take n = clockOut (rest ++ two) n := by
    rw [clockOut_eq, List.append_assoc, List.take_append_of_le_length h]
  have hrest : rest.drop n ++ two = (rest ++ two).drop n := (List.drop_append_of_le_length h).symm
  rw [hfirst, hrest, clockOut_add]

theorem drop_append_beyond (rest two : List Byte) (n : Nat) (h : rest.length ≤ n) :
    (rest ++ two).drop n = two.drop (n - rest.length) := by
  rw [List.drop_append, List.drop_eq_nil_of_le h, List.nil_append]

/-- Two parts of a COLLECT under way with nothing between them are one. -/
theorem clockBytes_add (n m : Nat) (phase : CollectPhase) (hcollect : (s.port p).collecting = some phase)
    (htaken : phase ≠ .ignored) : (s.clockBytes p n).clockBytes p m = s.clockBytes p (n + m) := by
  cases phase with
  | ignored => exact absurd rfl htaken
  | summary rest =>
    rw [clockBytes_of_summary s p n rest hcollect, clockBytes_of_summary _ p m _ (drive_collecting ..), drive_drive,
      clockBytes_of_summary s p (n + m) rest hcollect, clockOut_add, List.drop_drop]
  | frame c rest =>
    by_cases hn : n < rest.length
    · rw [clockBytes_of_lt s p n c rest hcollect hn]
      have hlength : (rest.drop n).length = rest.length - n := List.length_drop
      by_cases hm : m < (rest.drop n).length
      · rw [clockBytes_of_lt _ p m c _ (drive_collecting ..) hm, drive_drive,
          clockBytes_of_lt s p (n + m) c rest hcollect (by omega), List.take_add, List.drop_drop]
      · rw [clockBytes_of_le _ p m c _ (drive_collecting ..) (Nat.le_of_not_lt hm), removeChosen_drive, drive_drive,
          summary_drive, clockBytes_of_le s p (n + m) c rest hcollect (by omega), take_append_clockOut _ _ n m hn.le,
          hlength, show m - (rest.length - n) = n + m - rest.length by omega]
    · have hle := Nat.le_of_not_lt hn
      rw [clockBytes_of_le s p n c rest hcollect hle, clockBytes_of_summary _ p m _ (drive_collecting ..), drive_drive,
        clockBytes_of_le s p (n + m) c rest hcollect (by omega), ← drop_append_beyond _ _ n hle, clockOut_add,
        List.drop_drop, drop_append_beyond _ _ (n + m) (by omega)]

theorem collectOn_of_none (n : Nat) (h : (s.port p).collecting = none) :
    s.collectOn p n = (s.beginCollect p).clockBytes p n := by
  simp only [collectOn, h]

theorem collectOn_of_some (n : Nat) (phase : CollectPhase) (h : (s.port p).collecting = some phase) :
    s.collectOn p n = s.clockBytes p n := by
  simp only [collectOn, h]

theorem beginCollect_collecting : ((s.beginCollect p).port p).collecting =
    some (.frame (s.collectChoice p) (chosenBytes (s.collectChoice p))) := by
  simp only [beginCollect, port_setPort_self]

/-- A part leaves something to send: the rest of what was chosen, or the rest of the summary. -/
theorem clockBytes_collecting (n : Nat) (phase : CollectPhase) (h : (s.port p).collecting = some phase)
    (htaken : phase ≠ .ignored) : ∃ left, ((s.clockBytes p n).port p).collecting = some left ∧ left ≠ .ignored := by
  cases phase with
  | ignored => exact absurd rfl htaken
  | summary rest =>
    rw [clockBytes_of_summary s p n rest h]
    exact ⟨_, drive_collecting .., nofun⟩
  | frame c rest =>
    rcases Nat.lt_or_ge n rest.length with hlt | hle
    · rw [clockBytes_of_lt s p n c rest h hlt]
      exact ⟨_, drive_collecting .., nofun⟩
    · rw [clockBytes_of_le s p n c rest h hle]
      exact ⟨_, drive_collecting .., nofun⟩

/-- A part leaves the lines of its port as they are. -/
theorem clockBytes_lines (n : Nat) : (s.clockBytes p n).rstAsserted = s.rstAsserted ∧
    ((s.clockBytes p n).port p).prstAsserted = (s.port p).prstAsserted ∧
    ((s.clockBytes p n).port p).selectIgnored = (s.port p).selectIgnored := by
  have hremove (c : Option (Bool × Answer)) : (s.removeChosen p c).rstAsserted = s.rstAsserted ∧
      ((s.removeChosen p c).port p).prstAsserted = (s.port p).prstAsserted ∧
      ((s.removeChosen p c).port p).selectIgnored = (s.port p).selectIgnored := by
    rcases c with _ | ⟨_ | _, a⟩ <;> simp [removeChosen]
  unfold clockBytes
  split
  next => exact ⟨rfl, rfl, rfl⟩
  next => exact ⟨rfl, rfl, rfl⟩
  next => simp [drive]
  next c rest _ =>
    split
    next => simp [drive]
    next => simpa [drive] using hremove c

/-- What is left of a COLLECT after a part of it: its phase, or nothing where select is deasserted. -/
theorem settle_drive (b : List Byte) (l : CollectPhase) (more : Bool) :
    (if more then s.drive p b l else (s.drive p b l).endCollect p) = s.setPort p { s.port p with
      clockedOut := (s.port p).clockedOut ++ b, collecting := if more then some l else none } := by
  cases more
  · simp only [drive, endCollect, port_setPort_self, setPort_setPort, Bool.false_eq_true, if_false]
  · rfl

end Pieces

/-! ## The attention lines and a COLLECT (R173) -/

/-- The part with its attention lines driven to the given levels. -/
def withAttention (s : State) (high low : Bool) : State :=
  { s with portH := { s.portH with attention := high }, portL := { s.portL with attention := low } }

theorem updateAttention_eq_withAttention (s : State) :
    s.updateAttention = s.withAttention (s.attentionNeeded .H) (s.attentionNeeded .L) := updateAttention_eq s

section Attention
variable (s : State) (p : Port) (high low : Bool)

theorem withAttention_port : (s.withAttention high low).port p =
    { s.port p with attention := ((s.withAttention high low).port p).attention } := by
  cases p <;> rfl

theorem deliverable_withAttention (i : SlotNo) : (s.withAttention high low).deliverable p i = s.deliverable p i :=
  deliverable_congr _ _ p i rfl rfl (by rw [withAttention_port]) (by rw [withAttention_port])

theorem updateAttention_withAttention : (s.withAttention high low).updateAttention = s.updateAttention := by
  have hneeded (q : Port) : (s.withAttention high low).attentionNeeded q = s.attentionNeeded q :=
    attentionNeeded_congr _ _ q (by rw [withAttention_port]) (by rw [withAttention_port])
      (deliverable_withAttention s q high low)
  simp only [updateAttention_eq_withAttention, hneeded]
  rfl

theorem drive_withAttention (b : List Byte) (l : CollectPhase) :
    (s.withAttention high low).drive p b l = (s.drive p b l).withAttention high low := by
  cases p <;> rfl

theorem endCollect_withAttention :
    (s.withAttention high low).endCollect p = (s.endCollect p).withAttention high low := by
  cases p <;> rfl

theorem removeChosen_withAttention (c : Option (Bool × Answer)) :
    (s.withAttention high low).removeChosen p c = (s.removeChosen p c).withAttention high low := by
  rcases c with _ | ⟨_ | _, a⟩
  · rfl
  · cases p <;> rfl
  · cases p <;> rfl

theorem summary_withAttention : (s.withAttention high low).summary p = s.summary p := by
  have hcount : (s.withAttention high low).deliverableCount p = s.deliverableCount p := by
    simp only [deliverableCount, deliverable_withAttention]
  rw [summary, hcount, withAttention_port]
  rfl

theorem clockBytes_withAttention (n : Nat) :
    (s.withAttention high low).clockBytes p n = (s.clockBytes p n).withAttention high low := by
  have hcollect : ((s.withAttention high low).port p).collecting = (s.port p).collecting := by rw [withAttention_port]
  cases hphase : (s.port p).collecting with
  | none => simp only [clockBytes, hcollect, hphase]
  | some phase =>
    rw [hphase] at hcollect
    cases phase with
    | ignored => simp only [clockBytes, hcollect, hphase]
    | summary rest =>
      rw [clockBytes_of_summary _ p n rest hcollect, clockBytes_of_summary s p n rest hphase, drive_withAttention]
    | frame c rest =>
      rcases Nat.lt_or_ge n rest.length with hlt | hle
      · rw [clockBytes_of_lt _ p n c rest hcollect hlt, clockBytes_of_lt s p n c rest hphase hlt, drive_withAttention]
      · rw [clockBytes_of_le _ p n c rest hcollect hle, clockBytes_of_le s p n c rest hphase hle,
          removeChosen_withAttention, summary_withAttention, drive_withAttention]

end Attention

/-! ## A COLLECT that is taken (R164, R172) -/

section Taken
variable (s : State) (p : Port) (n : Nat) (more : Bool)

/-- The lines let the port's COLLECT run. -/
def Open (s : State) (p : Port) : Prop :=
  s.rstAsserted = false ∧ (s.port p).prstAsserted = false ∧ (s.port p).selectIgnored = false

variable (hopen : s.Open p)
include hopen

theorem exec_collect_of_some (phase : CollectPhase) (hphase : (s.port p).collecting = some phase) :
    exec (.collect p ⟨n, more⟩) s =
      .next (if more then s.clockBytes p n else (s.clockBytes p n).endCollect p).updateAttention := by
  obtain ⟨hr, hp, hi⟩ := hopen
  rw [exec_collect s p n more hr hp hi, collectOn_of_some s p n phase hphase]

/-- A COLLECT that begins is one under way with nothing clocked. -/
theorem exec_collect_beginCollect (hnone : (s.port p).collecting = none) :
    exec (.collect p ⟨n, more⟩) s = exec (.collect p ⟨n, more⟩) (s.beginCollect p) := by
  have hbegun : (s.beginCollect p).Open p := by
    obtain ⟨hr, hp, hi⟩ := hopen
    exact ⟨by simpa [beginCollect] using hr, by simpa [beginCollect] using hp, by simpa [beginCollect] using hi⟩
  obtain ⟨hr, hp, hi⟩ := hopen
  rw [exec_collect s p n more hr hp hi, collectOn_of_none s p n hnone,
    exec_collect_of_some (s.beginCollect p) p n more hbegun _ (beginCollect_collecting s p)]

/-- R172: bytes of what was chosen remain. -/
theorem exec_collect_of_lt (c : Option (Bool × Answer)) (rest : List Byte)
    (hphase : (s.port p).collecting = some (.frame c rest)) (hn : n < rest.length) :
    exec (.collect p ⟨n, more⟩) s = .next (s.setPort p { s.port p with
      clockedOut := (s.port p).clockedOut ++ rest.take n
      collecting := if more then some (.frame c (rest.drop n)) else none }).updateAttention := by
  rw [exec_collect_of_some s p n more hopen _ hphase, clockBytes_of_lt s p n c rest hphase hn, settle_drive]

/-- R172: the last byte of what was chosen is clocked. -/
theorem exec_collect_of_le (c : Option (Bool × Answer)) (rest : List Byte)
    (hphase : (s.port p).collecting = some (.frame c rest)) (hn : rest.length ≤ n) :
    exec (.collect p ⟨n, more⟩) s = .next ((s.removeChosen p c).setPort p { (s.removeChosen p c).port p with
      clockedOut := ((s.removeChosen p c).port p).clockedOut ++
        (rest ++ (s.removeChosen p c).summary p ++ List.replicate n 0xFF).take n
      collecting := if more then some (.summary (((s.removeChosen p c).summary p).drop (n - rest.length)))
        else none }).updateAttention := by
  rw [exec_collect_of_some s p n more hopen _ hphase, clockBytes_of_le s p n c rest hphase hn, settle_drive, clockOut_eq]

/-- R172: the summary is under way. -/
theorem exec_collect_of_summary (rest : List Byte) (hphase : (s.port p).collecting = some (.summary rest)) :
    exec (.collect p ⟨n, more⟩) s = .next (s.setPort p { s.port p with
      clockedOut := (s.port p).clockedOut ++ (rest ++ List.replicate n 0xFF).take n
      collecting := if more then some (.summary (rest.drop n)) else none }).updateAttention := by
  rw [exec_collect_of_some s p n more hopen _ hphase, clockBytes_of_summary s p n rest hphase, settle_drive, clockOut_eq]

end Taken

/-- R172: parts of a COLLECT with nothing between them are one. -/
theorem exec_collect_parts (s : State) (p : Port) (n m : Nat) (more : Bool) (htakes : s.Takes p) :
    ∃ t, exec (.collect p ⟨n, true⟩) s = .next t ∧
      exec (.collect p ⟨m, more⟩) t = exec (.collect p ⟨n + m, more⟩) s := by
  obtain ⟨hr, hp, hi, hnone⟩ := htakes
  have hopen : s.Open p := ⟨hr, hp, hi⟩
  have hbegun : (s.beginCollect p).Open p :=
    ⟨by simpa [beginCollect] using hr, by simpa [beginCollect] using hp, by simpa [beginCollect] using hi⟩
  have hphase := beginCollect_collecting s p
  obtain ⟨left, hleft, -⟩ := clockBytes_collecting (s.beginCollect p) p n _ hphase nofun
  refine ⟨((s.beginCollect p).clockBytes p n).updateAttention, ?_, ?_⟩
  · rw [exec_collect_beginCollect s p n true hopen hnone, exec_collect_of_some _ p n true hbegun _ hphase, if_pos rfl]
  · rw [exec_collect_beginCollect s p (n + m) more hopen hnone, exec_collect_of_some _ p (n + m) more hbegun _ hphase,
      ← clockBytes_add (s.beginCollect p) p n m _ hphase nofun]
    have hlines : ((s.beginCollect p).clockBytes p n).Open p := by
      obtain ⟨hrst, hprst, hselect⟩ := clockBytes_lines (s.beginCollect p) p n
      obtain ⟨hr', hp', hi'⟩ := hbegun
      exact ⟨hrst.trans hr', hprst.trans hp', hselect.trans hi'⟩
    generalize (s.beginCollect p).clockBytes p n = u at hleft hlines ⊢
    rw [updateAttention_eq_withAttention u]
    generalize u.attentionNeeded .H = high
    generalize u.attentionNeeded .L = low
    obtain ⟨hr', hp', hi'⟩ := hlines
    have hlines' : (u.withAttention high low).Open p :=
      ⟨hr', by rw [withAttention_port]; exact hp', by rw [withAttention_port]; exact hi'⟩
    rw [exec_collect_of_some _ p m more hlines' left (by rw [withAttention_port]; exact hleft), clockBytes_withAttention,
      endCollect_withAttention, ← apply_ite (fun t : State => t.withAttention high low), updateAttention_withAttention]

/-! ## What each choice sends and removes (R170, R172) -/

section Choices
variable (s : State) (p : Port) (n : Nat) (more : Bool)

section UnderWay
variable (hopen : s.Open p)
include hopen

theorem exec_collect_empty (rest : List Byte) (hphase : (s.port p).collecting = some (.frame none rest))
    (hn : rest.length ≤ n) :
    let two := [byte (s.deliverableCount p), byte (s.port p).openTags.length]
    exec (.collect p ⟨n, more⟩) s = .next (s.setPort p { s.port p with
      clockedOut := (s.port p).clockedOut ++ (rest ++ two ++ List.replicate n 0xFF).take n
      collecting := if more then some (.summary (two.drop (n - rest.length))) else none }).updateAttention :=
  exec_collect_of_le s p n more hopen none rest hphase hn

theorem exec_collect_refusal (a : Answer) (rest : List Byte)
    (hphase : (s.port p).collecting = some (.frame (some (true, a)) rest)) (hn : rest.length ≤ n) :
    let two := [byte (s.deliverableCount p), byte (s.port p).openTags.length]
    exec (.collect p ⟨n, more⟩) s = .next (s.setPort p { s.port p with
      refusals := (s.port p).refusals.tail
      clockedOut := (s.port p).clockedOut ++ (rest ++ two ++ List.replicate n 0xFF).take n
      collecting := if more then some (.summary (two.drop (n - rest.length))) else none }).updateAttention := by
  have hcount := deliverableCount_setPort s p { s.port p with refusals := (s.port p).refusals.tail } rfl rfl
  rw [exec_collect_of_le s p n more hopen _ rest hphase hn]
  simp only [removeChosen, summary, hcount, port_setPort_self, setPort_setPort]

theorem exec_collect_answer (a : Answer) (rest : List Byte)
    (hphase : (s.port p).collecting = some (.frame (some (false, a)) rest)) (hn : rest.length ≤ n) :
    let left := (s.port p).openTags.filter fun e : OpenTag => e.tag != a.tag
    let two := [byte (s.deliverableCount p), byte left.length]
    exec (.collect p ⟨n, more⟩) s = .next (s.setPort p { s.port p with
      queue := (s.port p).queue.tail
      openTags := left
      clockedOut := (s.port p).clockedOut ++ (rest ++ two ++ List.replicate n 0xFF).take n
      collecting := if more then some (.summary (two.drop (n - rest.length))) else none }).updateAttention := by
  have hcount := deliverableCount_setPort s p { s.port p with
    queue := (s.port p).queue.tail
    openTags := (s.port p).openTags.filter fun e : OpenTag => e.tag != a.tag } rfl rfl
  rw [exec_collect_of_le s p n more hopen _ rest hphase hn]
  simp only [removeChosen, summary, hcount, port_setPort_self, setPort_setPort]

end UnderWay

/-! ## The choice at the command byte -/

/-- The port's record once a COLLECT's command byte has chosen. -/
def chosenRecord (s : State) (p : Port) (c : Option (Bool × Answer)) : PortRec :=
  { s.port p with clockedOut := [], collecting := some (.frame c (chosenBytes c)) }

theorem collectChoice_refusal (a : Answer) (rest : List Answer) (h : (s.port p).refusals = a :: rest) :
    s.collectChoice p = some (true, a) := by
  simp only [collectChoice, h]

theorem collectChoice_answer (a : Answer) (rest : List Answer) (hnone : (s.port p).refusals = [])
    (h : (s.port p).queue = a :: rest) : s.collectChoice p = some (false, a) := by
  simp only [collectChoice, hnone, h]

theorem collectChoice_empty (hnone : (s.port p).refusals = []) (h : (s.port p).queue = []) :
    s.collectChoice p = none := by
  simp only [collectChoice, hnone, h]

theorem chosenRecord_open (c : Option (Bool × Answer)) (htakes : s.Takes p) : (s.setPort p (s.chosenRecord p c)).Open p := by
  obtain ⟨hr, hp, hi, -⟩ := htakes
  exact ⟨by simpa using hr, by simpa [chosenRecord] using hp, by simpa [chosenRecord] using hi⟩

variable (c : Option (Bool × Answer)) (htakes : s.Takes p) (hchoice : s.collectChoice p = c)
include htakes hchoice

theorem exec_collect_chosen :
    exec (.collect p ⟨n, more⟩) s = exec (.collect p ⟨n, more⟩) (s.setPort p (s.chosenRecord p c)) := by
  obtain ⟨hr, hp, hi, hnone⟩ := htakes
  rw [exec_collect_beginCollect s p n more ⟨hr, hp, hi⟩ hnone, beginCollect, hchoice]
  rfl

/-- Nothing of the choice is clocked by the command byte alone. -/
theorem exec_collect_begun : exec (.collect p ⟨0, true⟩) s = .next (s.setPort p { s.port p with
    clockedOut := [], collecting := some (.frame c (chosenBytes c)) }).updateAttention := by
  have hopen := chosenRecord_open s p c htakes
  have hpositive : 0 < (chosenBytes c).length := List.length_pos_of_ne_nil (chosenBytes_ne_nil c)
  rw [exec_collect_chosen s p 0 true c htakes hchoice, exec_collect_of_lt _ p 0 true hopen c (chosenBytes c)
    (by rw [port_setPort_self]; rfl) hpositive]
  simp [chosenRecord]

/-- Fewer bytes are clocked than were chosen: they are driven, and nothing is removed. -/
theorem exec_collect_short (hn : n < (chosenBytes c).length) : exec (.collect p ⟨n, false⟩) s =
    .next (s.setPort p { s.port p with clockedOut := (chosenBytes c).take n }).updateAttention := by
  have hopen := chosenRecord_open s p c htakes
  obtain ⟨-, -, -, hnone⟩ := id htakes
  rw [exec_collect_chosen s p n false c htakes hchoice, exec_collect_of_lt _ p n false hopen c (chosenBytes c)
    (by rw [port_setPort_self]; rfl) hn]
  simp [chosenRecord, hnone]

end Choices

section Whole
variable (s : State) (p : Port) (n : Nat) (htakes : s.Takes p)
include htakes

theorem exec_collect_nothing (hrefusals : (s.port p).refusals = []) (hqueue : (s.port p).queue = []) :
    exec (.collect p ⟨n, false⟩) s = .next (s.setPort p { s.port p with
      clockedOut := ([0x00, byte (s.deliverableCount p), byte (s.port p).openTags.length] ++
        List.replicate n 0xFF).take n }).updateAttention := by
  have hchoice := collectChoice_empty s p hrefusals hqueue
  obtain ⟨-, -, -, hnone⟩ := id htakes
  rcases Nat.lt_or_ge n 1 with hshort | hlong
  · obtain rfl : n = 0 := by omega
    rw [exec_collect_short s p 0 none htakes hchoice hshort, List.take_zero, List.take_zero]
  · have hcount := deliverableCount_setPort s p (s.chosenRecord p none) rfl rfl
    rw [exec_collect_chosen s p n false none htakes hchoice, exec_collect_empty _ p n false
      (chosenRecord_open s p none htakes) (chosenBytes none) (by rw [port_setPort_self]; rfl) hlong, hcount]
    simp [chosenRecord, chosenBytes, hnone]

theorem exec_collect_held_refusal (a : Answer) (rest : List Answer) (hrefusals : (s.port p).refusals = a :: rest) :
    exec (.collect p ⟨n, false⟩) s = .next (if n < a.data.length + 5 then
      s.setPort p { s.port p with clockedOut := (responseFrame true a).take n }
    else s.setPort p { s.port p with
      refusals := rest
      clockedOut := (responseFrame true a ++ [byte (s.deliverableCount p), byte (s.port p).openTags.length] ++
        List.replicate n 0xFF).take n }).updateAttention := by
  have hchoice := collectChoice_refusal s p a rest hrefusals
  obtain ⟨-, -, -, hnone⟩ := id htakes
  have hlength : (chosenBytes (some (true, a))).length = a.data.length + 5 := length_responseFrame true a
  split
  next hshort => exact exec_collect_short s p n _ htakes hchoice (hlength ▸ hshort)
  next hlong =>
    have hcount := deliverableCount_setPort s p (s.chosenRecord p (some (true, a))) rfl rfl
    rw [exec_collect_chosen s p n false _ htakes hchoice, exec_collect_refusal _ p n false
      (chosenRecord_open s p _ htakes) a _ (by rw [port_setPort_self]; rfl) (by omega), hcount]
    simp [chosenRecord, chosenBytes, hnone, hrefusals]

theorem exec_collect_held_answer (a : Answer) (rest : List Answer) (hrefusals : (s.port p).refusals = [])
    (hqueue : (s.port p).queue = a :: rest) :
    exec (.collect p ⟨n, false⟩) s = .next (if n < a.data.length + 5 then
      s.setPort p { s.port p with clockedOut := (responseFrame false a).take n }
    else s.setPort p { s.port p with
      queue := rest
      openTags := (s.port p).openTags.filter fun e => e.tag != a.tag
      clockedOut := (responseFrame false a ++ [byte (s.deliverableCount p),
        byte ((s.port p).openTags.filter fun e : OpenTag => e.tag != a.tag).length] ++
        List.replicate n 0xFF).take n }).updateAttention := by
  have hchoice := collectChoice_answer s p a rest hrefusals hqueue
  obtain ⟨-, -, -, hnone⟩ := id htakes
  have hlength : (chosenBytes (some (false, a))).length = a.data.length + 5 := length_responseFrame false a
  split
  next hshort => exact exec_collect_short s p n _ htakes hchoice (hlength ▸ hshort)
  next hlong =>
    have hcount := deliverableCount_setPort s p (s.chosenRecord p (some (false, a))) rfl rfl
    rw [exec_collect_chosen s p n false _ htakes hchoice, exec_collect_answer _ p n false
      (chosenRecord_open s p _ htakes) a _ (by rw [port_setPort_self]; rfl) (by omega), hcount]
    simp [chosenRecord, chosenBytes, hnone, hqueue]

end Whole

/-- R164: another transaction of the port ends the COLLECT under way. -/
theorem exec_endCollect (s : State) (p : Port) (hopen : s.Open p) (c : Instr) (hcarrier : c.carrier = some p)
    (hother : ∀ part, c ≠ .collect p part) : exec c s = exec c (s.endCollect p) := by
  rcases exec_of_carrier hcarrier with ⟨part, rfl⟩ | ⟨act, hact⟩
  · exact absurd rfl (hother part)
  · obtain ⟨hr, hp, hi⟩ := hopen
    have hr' : (s.endCollect p).rstAsserted = false := by simpa [endCollect] using hr
    simp only [hact, transaction, hr, hr', hp, hi, endCollect_port, endCollect_endCollect, Bool.false_eq_true,
      or_self, if_false]

end State

/-- Settles O9: a COLLECT that begins is one under way with nothing clocked, and each part of one under way is given by
what is left to send. -/
theorem collectSendsAndRemoves : Obligations.CollectSendsAndRemoves := by
  unfold Obligations.CollectSendsAndRemoves
  constructor
  · intro s p n htakes
    refine ⟨State.exec_collect_nothing s p n htakes, State.exec_collect_held_refusal s p n htakes,
      State.exec_collect_held_answer s p n htakes, fun m more => State.exec_collect_parts s p n m more htakes, ?_⟩
    intro begun
    exact ⟨fun a rest h => State.exec_collect_begun s p _ htakes (State.collectChoice_refusal s p a rest h),
      fun a rest hnone h => State.exec_collect_begun s p _ htakes (State.collectChoice_answer s p a rest hnone h),
      fun hnone h => State.exec_collect_begun s p _ htakes (State.collectChoice_empty s p hnone h)⟩
  · intro s p n more hr hp hi
    have hopen : s.Open p := ⟨hr, hp, hi⟩
    intro kept sent
    exact ⟨State.exec_collect_of_lt s p n more hopen, State.exec_collect_empty s p n more hopen,
      State.exec_collect_refusal s p n more hopen, State.exec_collect_answer s p n more hopen,
      State.exec_collect_of_summary s p n more hopen, State.exec_endCollect s p hopen⟩

end Sys2Proof.Machine
end

section
/-! SUPPORT. PORT.CANCEL: the one waiting request that a tag names, and what its cancel leaves (R84, R128, R178). -/

namespace Sys2Proof.Machine
namespace State

/-! ## The waiting request that a tag names -/

section Named
variable (s : State) (p : Port) (u : Tag)

theorem any_isRequest_eq_false (h : ∀ j ∈ s.frontEnd.queue, (j.port, j.tag) ≠ (p, u)) :
    s.frontEnd.queue.any (isRequest p u) = false := by
  rw [List.any_eq_false]
  intro j hj hreq
  simp only [isRequest, Bool.and_eq_true, beq_iff_eq] at hreq
  exact h j hj (by rw [hreq.1.1, hreq.1.2])

theorem convertingRequest_eq_false (h : ∀ j ∈ s.convertingJob, (j.port, j.tag) ≠ (p, u)) :
    s.convertingRequest p u = false := by
  have hheld (j : DirectJob) (ch : ChannelNo) (g : Gain) (hj : s.frontEnd.converter.held = some (.direct j ch g)) :
      isRequest p u j = false := by
    rw [convertingJob_of_held hj] at h
    rw [Bool.eq_false_iff]
    intro hreq
    simp only [isRequest, Bool.and_eq_true, beq_iff_eq] at hreq
    obtain ⟨⟨hport, htag⟩, hanswer⟩ := hreq
    exact h j (by simp [HeldJob.requests, hanswer]) (by rw [hport, htag])
  unfold convertingRequest
  split
  next => rfl
  next => rfl
  next => rfl
  next j ch g due hc => exact hheld j ch g (by rw [hc]; rfl)
  next j ch g due hc => exact hheld j ch g (by rw [hc]; rfl)

/-- Of a queued job, only its own port and tag name it (R76). -/
theorem cancelEffect_of_queued (hw : WaitingLaw s) (j : DirectJob) (hj : j ∈ s.frontEnd.queue) (hport : j.port = p)
    (htag : j.tag = u) : s.cancelEffect p u =
      some (s.setFrontEnd { s.frontEnd with queue := s.frontEnd.queue.filter fun q => q != j }) := by
  obtain ⟨hanswer, hnodup, -⟩ := hw
  rw [waitingRequests_eq, List.append_assoc] at hnodup
  have hkeys := (List.nodup_append.1 hnodup).1
  have hnamed (q : DirectJob) (hq : q ∈ s.frontEnd.queue) : isRequest p u q = true ↔ q = j := by
    constructor
    · intro hreq
      simp only [isRequest, Bool.and_eq_true, beq_iff_eq] at hreq
      refine List.inj_on_of_nodup_map hkeys hq hj ?_
      rw [hreq.1.1, hreq.1.2, hport, htag]
    · rintro rfl
      simp [isRequest, hport, htag, hanswer q hq]
  have hany : s.frontEnd.queue.any (isRequest p u) = true := List.any_eq_true.2 ⟨j, hj, (hnamed j hj).2 rfl⟩
  have hfilter : (s.frontEnd.queue.filter fun q => !isRequest p u q) = s.frontEnd.queue.filter fun q => q != j := by
    refine List.filter_congr fun q hq => ?_
    rw [Bool.eq_iff_iff, Bool.not_eq_true', bne_iff_ne, ne_eq, ← hnamed q hq, Bool.not_eq_true]
  rw [cancelEffect, if_pos hany, hfilter]

/-- The converting job's request is no queued one (R177). -/
theorem cancelEffect_of_converting (hw : WaitingLaw s) (j : DirectJob) (ch : ChannelNo) (g : Gain)
    (hheld : s.frontEnd.converter.held = some (.direct j ch g)) (hport : j.port = p) (htag : j.tag = u)
    (hanswer : j.disposition = .answer) : s.cancelEffect p u =
      some (s.setFrontEnd { s.frontEnd with converter := s.frontEnd.converter.discardFor (isRequest p u) }) := by
  obtain ⟨-, hnodup, -⟩ := hw
  have hreq : isRequest p u j = true := by simp [isRequest, hport, htag, hanswer]
  have hnone : s.frontEnd.queue.any (isRequest p u) = false := by
    refine any_isRequest_eq_false s p u fun q hq he => ?_
    rw [waitingRequests_eq] at hnodup
    refine (List.nodup_append.1 (List.nodup_append.1 hnodup).1).2.2 _ (List.mem_map_of_mem hq) (j.port, j.tag) ?_
      (by rw [he, hport, htag])
    rw [convertingJob_of_held hheld]
    simp [HeldJob.requests, hanswer]
  have hconverts : s.convertingRequest p u = true := by
    cases hc : s.frontEnd.converter with
    | idle => rw [hc] at hheld; cases hheld
    | settling h due =>
      obtain rfl : h = .direct j ch g := by rw [hc] at hheld; exact Option.some.inj hheld
      rw [convertingRequest, hc]
      exact hreq
    | sampling h due =>
      obtain rfl : h = .direct j ch g := by rw [hc] at hheld; exact Option.some.inj hheld
      rw [convertingRequest, hc]
      exact hreq
  rw [cancelEffect, if_neg (Bool.eq_false_iff.1 hnone), if_pos hconverts]

/-- A waiting NOTICE.WAIT is no direct job (R177). -/
theorem cancelEffect_of_wait (hw : WaitingLaw s) (w : WaitRec) (hmem : w ∈ s.waits) (hport : w.port = p)
    (htag : w.tag = u) : s.cancelEffect p u = some (s.dropWait p) := by
  obtain ⟨-, hnodup, -⟩ := hw
  rw [waitingRequests, List.nodup_append] at hnodup
  have hkey : (p, u) ∈ s.waits.map fun w => (w.port, w.tag) := List.mem_map.2 ⟨w, hmem, by rw [hport, htag]⟩
  have hnot (j : DirectJob) (hj : j ∈ s.frontEnd.queue ++ s.convertingJob) : (j.port, j.tag) ≠ (p, u) :=
    hnodup.2.2 _ (List.mem_map.2 ⟨j, hj, rfl⟩) _ hkey
  have hqueue := any_isRequest_eq_false s p u fun j hj => hnot j (List.mem_append_left _ hj)
  have hconverts := convertingRequest_eq_false s p u fun j hj => hnot j (List.mem_append_right _ hj)
  have hany : (s.waits.any fun w => w.port == p && w.tag == u) = true :=
    List.any_eq_true.2 ⟨w, hmem, by simp [hport, htag]⟩
  rw [cancelEffect, if_neg (Bool.eq_false_iff.1 hqueue), if_neg (Bool.eq_false_iff.1 hconverts), if_pos hany]

/-- A tag that is not WAITING names no request (R177). -/
theorem cancelEffect_eq_none (hw : WaitingLaw s) (h : ∀ e ∈ (s.port p).openTags, e.tag = u → e.place = .answered) :
    s.cancelEffect p u = none := by
  cases heffect : s.cancelEffect p u with
  | none => rfl
  | some v =>
    obtain ⟨hports, -, -, hwaiting⟩ := cancelEffect_spec s v p u heffect
    have hpaired := (hwaiting [] ((waitingLaw_iff s).1 hw)).paired p u
    obtain ⟨e, he, htag, hplace⟩ := hpaired.1 (List.mem_append_right _ (List.mem_singleton.2 rfl))
    rw [hports] at he
    exact absurd (h e he htag) (by rw [hplace]; decide)

theorem cancelEffect_openTag (t : Tag) (k : Byte) :
    (s.openTag p t k).cancelEffect p u = (s.cancelEffect p u).map fun v => v.openTag p t k := by
  have hconverts : (s.openTag p t k).convertingRequest p u = s.convertingRequest p u := by
    simp only [convertingRequest, openTag_frontEnd]
  simp only [cancelEffect, openTag_frontEnd, openTag_waits, openTag_setFrontEnd, hconverts, dropWait_openTag,
    apply_ite (Option.map fun v : State => v.openTag p t k), Option.map_some, Option.map_none]

end Named

/-! ## PORT.CANCEL (R178) -/

section Cancel
variable {s : State} {p : Port} {t : Tag}

theorem exec_portCancel (s : State) (p : Port) (t : Tag) (target : Byte) :
    exec (.portCancel p t target) s = .next (s.request p t .portCancel (ownCancel p t target)) := rfl

/-- A tag byte above 15 (R178). -/
theorem exec_portCancel_badArgument (hready : s.Ready p t) (b : Byte) (hb : 16 ≤ b.toNat) :
    exec (.portCancel p t b) s = .next (s.answered p t 0x04 .badArgument []) :=
  exec_of_reply .portCancel hready (exec_portCancel s p t b) (by rw [ownCancel, (tagOf_eq_none b).2 hb])

/-- A tag that names no waiting request of the port (R178). -/
theorem exec_portCancel_notOutstanding (hready : s.Ready p t) (u : Tag) (hnone : s.cancelEffect p u = none) :
    exec (.portCancel p t (byte u.val)) s = .next (s.answered p t 0x04 .notOutstanding []) := by
  refine exec_of_reply .portCancel hready (exec_portCancel s p t _) ?_
  simp only [ownCancel, tagOf_byte, cancelEffect_openTag, hnone, Option.map_none]
  split
  · rfl
  · rfl

/-- A tag that names one: its CANCELLED answer goes ahead of the cancel's OK (R178). -/
theorem exec_portCancel_of_effect (hready : s.Ready p t) (u : Tag) (k : Byte) (hwaits : s.Waits p u k) (v : State)
    (heffect : s.cancelEffect p u = some v) :
    exec (.portCancel p t (byte u.val)) s = .next ((v.served p u k .cancelled []).answered p t 0x04 .ok []) := by
  obtain ⟨hports, -⟩ := cancelEffect_spec s v p u heffect
  obtain ⟨⟨-, hfresh, -⟩, -⟩ := id hready
  have hne : u ≠ t := hfresh _ hwaits.1
  have hserved : v.answerTag p u .cancelled [] = v.served p u k .cancelled [] :=
    answerTag_of_waits v p u k .cancelled [] (by rw [Waits, hports]; exact hwaits)
  refine exec_of_answer .portCancel (v.served p u k .cancelled []) hready.1 (.inr hready.2) (exec_portCancel s p t _) ?_ ?_
  · have hother : (p, u) ≠ (p, t) := fun e => hne (congrArg Prod.snd e)
    simp only [ownCancel, tagOf_byte, if_neg hne, cancelEffect_openTag, heffect, Option.map_some,
      answerTag_openTag_ne v p p t u _ .cancelled [] hother, hserved]
  · rw [served, port_setPort_self, hports]
    intro e he
    obtain ⟨e', he', rfl⟩ := List.mem_map.1 he
    split
    · exact hfresh e' he'
    · exact hfresh e' he'

end Cancel
end State

/-- Settles O12: the law of the waiting requests makes the request that a tag names the one of its lists. -/
theorem cancelEndsTheWait : Obligations.CancelEndsTheWait := by
  unfold Obligations.CancelEndsTheWait
  intro s p t hready
  refine ⟨State.exec_portCancel_badArgument hready, fun u hw hanswered => ?_, fun u k due hw hwaits hmem => ?_,
    fun u k j hw hwaits hj hport htag => ?_, fun u k j ch g due phase hphase hw hwaits hconverter hport htag hanswer => ?_⟩
  · exact State.exec_portCancel_notOutstanding hready u (State.cancelEffect_eq_none s p u hw hanswered)
  · exact State.exec_portCancel_of_effect hready u k hwaits _ (State.cancelEffect_of_wait s p u hw _ hmem rfl rfl)
  · exact State.exec_portCancel_of_effect hready u k hwaits _ (State.cancelEffect_of_queued s p u hw j hj hport htag)
  · have hheld : s.frontEnd.converter.held = some (.direct j ch g) := by
      rw [hconverter]
      rcases hphase with rfl | rfl
      · rfl
      · rfl
    have hreq : State.isRequest p u j = true := by simp [State.isRequest, hport, htag, hanswer]
    have hdiscard : s.frontEnd.converter.discardFor (State.isRequest p u) =
        phase (.direct { j with disposition := .discard } ch g) due := by
      rw [hconverter]
      rcases hphase with rfl | rfl
      · simp only [Converter.discardFor, HeldJob.discardFor, hreq, if_true]
      · simp only [Converter.discardFor, HeldJob.discardFor, hreq, if_true]
    rw [← hdiscard]
    exact State.exec_portCancel_of_effect hready u k hwaits _
      (State.cancelEffect_of_converting s p u hw j ch g hheld hport htag hanswer)

end Sys2Proof.Machine
end

section
/-! SUPPORT. The end of a session by PORT.DETACH and by PRSTn: what it leaves in every block, with the other port's wait
served beside the ending port's record (R181, R182). -/

namespace Sys2Proof.Machine
namespace State

/-! ## The service of the waits beside the record of a port without one (R125) -/

section Beside
variable (s : State) (p : Port) (r : PortRec)

theorem fetch_setPort_ne (q : Port) (hq : p ≠ q) :
    (s.setPort p r).fetch q = (s.fetch q).map fun x => (x.1.setPort p r, x.2) := by
  have hbest : (s.setPort p r).best q = s.best q := best_congr _ _ q fun i =>
    deliverable_congr _ _ q i (by simp) (by simp) (by rw [port_setPort_ne _ _ _ _ hq]) (by rw [port_setPort_ne _ _ _ _ hq])
  simp only [fetch, hbest, Option.map_map]
  cases s.best q with
  | none => rfl
  | some x => cases p <;> rfl

theorem answerTag_setPort_ne (q : Port) (hq : p ≠ q) (t : Tag) (code : ResultCode) (data : List Byte) :
    (s.setPort p r).answerTag q t code data = (s.answerTag q t code data).setPort p r := by
  have hport := port_setPort_ne s p q r hq
  have htag : (s.setPort p r).waitingTag q t = s.waitingTag q t := by simp only [waitingTag, hport]
  simp only [answerTag, htag, hport]
  cases s.waitingTag q t with
  | none => rfl
  | some e =>
    cases p with
    | H =>
      cases q with
      | H => exact absurd rfl hq
      | L => rfl
    | L =>
      cases q with
      | H => rfl
      | L => exact absurd rfl hq

theorem serveWait_setPort_ne (w : WaitRec) (hw : p ≠ w.port) :
    (s.setPort p r).serveWait w = (s.serveWait w).setPort p r := by
  simp only [serveWait, fetch_setPort_ne s p r w.port hw]
  cases s.fetch w.port with
  | none => rfl
  | some x =>
    have hdrop : (x.1.setPort p r).dropWait w.port = (x.1.dropWait w.port).setPort p r := by cases p <;> rfl
    simp only [Option.map_some, hdrop, answerTag_setPort_ne _ p r w.port hw]

theorem serveWaits_setPort_ne (h : ∀ w ∈ s.waits, p ≠ w.port) :
    (s.setPort p r).serveWaits = s.serveWaits.setPort p r := by
  have hfold (ws : List WaitRec) (hws : ∀ w ∈ ws, p ≠ w.port) (u : State) :
      ws.foldl serveWait (u.setPort p r) = (ws.foldl serveWait u).setPort p r := by
    induction ws generalizing u with
    | nil => rfl
    | cons w ws ih =>
      obtain ⟨hw, hws⟩ := List.forall_mem_cons.1 hws
      rw [List.foldl_cons, List.foldl_cons, serveWait_setPort_ne u p r w hw, ih hws]
  have hwaits : (s.setPort p r).waits = s.waits := by simp
  rw [serveWaits, serveWaits, hwaits]
  exact hfold s.waits h s

end Beside

/-! ## What the end of a session leaves (R181) -/

section SessionEnd
variable (s : State) (p : Port)

theorem withSlots_output (f : SlotNo → PointSlot) (o : OutputNo) : (s.withSlots f).output o = s.output o := by
  simp only [withSlots, output]

theorem withNotices_output (f : SlotNo → Option Notice) (o : OutputNo) : (s.withNotices f).output o = s.output o := by
  simp only [withNotices, output]

/-- The session end of the model, with the converter that it leaves named. -/
def sessionEndedWith (c : Converter) : State :=
  (((((s.clearTraffic p).setFrontEnd { s.frontEnd with
    queue := s.frontEnd.queue.filter fun j => j.port != p, converter := c }).dropWait p).mapNotices
      (Notice.returnFrom p)).mapSlots (PointSlot.withoutClaim p)).mapOutputs (OutputChannel.releasePin p)

theorem sessionEnded_eq_sessionEndedWith :
    s.sessionEnded p = s.sessionEndedWith p (s.frontEnd.converter.discardFor fun j => j.port == p) := by
  cases p <;> rfl

/-- The session end of the model, given block by block. -/
theorem sessionEnded_eq_afterSessionEnd : s.sessionEnded p = s.afterSessionEnd p := by
  rw [sessionEnded_eq_sessionEndedWith, discardFor_port, afterSessionEnd,
    withOutputs_eq _ (OutputChannel.releasePin p) _ ?outputs, withNotices_eq _ (Notice.returnFrom p) _ ?notices,
    withSlots_eq _ (PointSlot.withoutClaim p) _ ?slots]
  case slots => exact fun i => by simp only [setWaits_slot, setFrontEnd_slot, setPort_slot]; rfl
  case notices =>
    intro i
    refine (congrArg (fun g => (s.notice i).map g) (funext fun n => (returnFrom_eq p n).symm)).trans ?_
    simp only [withSlots_notice, setWaits_notice, setFrontEnd_notice, setPort_notice]
  case outputs =>
    intro o
    simp only [withNotices_output, withSlots_output, setWaits_output, setFrontEnd_output, setPort_output]
    rfl
  cases p <;> rfl

theorem endSession_eq_afterSessionEnd : s.endSession p = (s.afterSessionEnd p).serveWaits := by
  rw [endSession_eq, sessionEnded_eq_afterSessionEnd]

/-- The end of a session clears the ending port's open tags, so one tag more makes no difference. -/
theorem endSession_openTag (t : Tag) (k : Byte) : (s.openTag p t k).endSession p = s.endSession p := by
  have hended : (s.openTag p t k).sessionEnded p = s.sessionEnded p := by cases p <;> rfl
  rw [endSession_eq, endSession_eq, hended]

/-- The levels of the ending port's lines play no part in the end of its session. -/
theorem endSession_setLines (prst select : Bool) :
    (s.setPort p { s.port p with prstAsserted := prst, selectIgnored := select }).endSession p =
      (s.endSession p).setPort p { s.port p with
        session := .detached, openTags := [], queue := [], refusals := []
        prstAsserted := prst, selectIgnored := select } := by
  have hended : (s.setPort p { s.port p with prstAsserted := prst, selectIgnored := select }).sessionEnded p =
      (s.sessionEnded p).setPort p { s.port p with
        session := .detached, openTags := [], queue := [], refusals := []
        prstAsserted := prst, selectIgnored := select } := by
    cases p <;> rfl
  rw [endSession_eq, endSession_eq, hended]
  refine serveWaits_setPort_ne _ p _ fun w hw => ?_
  rw [sessionEnded_waits, List.mem_filter, bne_iff_ne] at hw
  exact Ne.symm hw.2

theorem exec_portDetach (t : Tag) :
    exec (.portDetach p t) s = .next (s.request p t .portDetach (ownDetach p t)) := rfl

/-- PRSTn on an ATTACHED port (R182). -/
theorem exec_prstnAssert_attached (hprst : (s.port p).prstAsserted = false) (hrst : s.rstAsserted = false)
    (hsession : (s.port p).session = .attached) : exec (.prstnAssert p) s =
      .next (((s.setPort p { s.port p with prstAsserted := true, selectIgnored := false }).endSession p).portReset
        p).updateAttention := by
  have hattached : s.attached p = true := by simp [attached, hsession]
  simp only [exec, execPrstnAssert, hprst, hrst, hattached, Bool.false_eq_true, if_false, if_true]

/-- PRSTn on a DETACHED port (R182). -/
theorem exec_prstnAssert_detached (hprst : (s.port p).prstAsserted = false) (hrst : s.rstAsserted = false)
    (hsession : (s.port p).session = .detached) : exec (.prstnAssert p) s =
      .next ((s.setPort p { s.port p with prstAsserted := true, selectIgnored := false }).portReset
        p).updateAttention := by
  have hattached : s.attached p = false := by simp [attached, hsession]
  simp only [exec, execPrstnAssert, hprst, hrst, hattached, Bool.false_eq_true, if_false]

end SessionEnd
end State

/-- Settles O13: the model's session end is the one given block by block, and the service of the other port's wait runs
beside the ending port's record. -/
theorem sessionEndReachesEveryBlock : Obligations.SessionEndReachesEveryBlock := by
  unfold Obligations.SessionEndReachesEveryBlock
  constructor
  · intro s p t hready
    rw [← State.endSession_eq_afterSessionEnd]
    have hport := State.endSession_port_self s p
    have htags : ((s.endSession p).port p).openTags = [] := by rw [hport]
    refine ⟨State.exec_of_answer .portDetach (s.endSession p) hready.1 (.inr hready.2) (State.exec_portDetach s p t) ?_ ?_,
      htags, by rw [hport]⟩
    · rw [State.ownDetach, State.endSession_openTag]
    · rw [htags]
      exact nofun
  · intro s p hrst hprst
    constructor
    · intro hsession
      rw [State.exec_prstnAssert_attached s p hprst hrst hsession, State.endSession_setLines,
        ← State.endSession_eq_afterSessionEnd]
      simp only [State.portReset, State.port_setPort_self, State.setPort_setPort]
    · intro hsession
      rw [State.exec_prstnAssert_detached s p hprst hrst hsession]
      simp only [hsession, State.portReset, State.port_setPort_self, State.setPort_setPort]

end Sys2Proof.Machine
end
